-- ==== Sys2Proof/Word.lean ====
section
/-! DEFINITION. The word types of the model: bytes of the wires and of the stores, and the index of a station. -/

namespace Sys2Proof

/-- One byte of the host line, of a station link, of a sheet cell or of the template store. -/
abbrev Byte := BitVec 8

/-- A station of the desk. Station number n of the manual (1..12) is the index n - 1. -/
abbrev StationIx := Fin 12

end Sys2Proof
end

