-- ==== Sys2Proof/Syntax.lean ====
section
/-! DEFINITION. The commands of the 2412: one constructor for each row of spec/opcode_table.json.

A frame command carries the frame's station byte and its payload, and stands for the receipt of a whole frame that
matches this unit (R170); its kind is the row itself. A link command carries the station whose link it arrives on.
A key event carries its time of arrival in milliseconds, which the chatter guard compares (R74). -/

namespace Sys2Proof

/-- The commands and events the 2412 takes, each whole (spec/95_what_each_step_holds.md). -/
inductive Instr where
  /-- POWER_ON_RESET (R179): power applied or RESETN asserted, with the values of the unit address straps UA0..UA4
  and the line rate straps LR0, LR1. -/
  | powerOnReset (unitStraps : BitVec 5) (rateStraps : BitVec 2)
  /-- MARK (R167): the byte 0xC3 arrives on the host line. -/
  | mark
  /-- QUIET_TIMER_EXPIRY (R167): the host line has been quiet for 2 ms. -/
  | quietTimerExpiry
  /-- FRAME_ABORT (R168): a byte with a bad stop bit, or a second length byte that gives more than 2048. -/
  | frameAbort
  /-- FRAME_GAP_TIMEOUT (R169): 20 ms without a byte while IN FRAME. -/
  | frameGapTimeout
  /-- CHECKFAIL (R170): a whole frame for this unit whose check does not match; its station byte as received. -/
  | checkFail (station : Byte)
  /-- UNKNOWN_KIND (R174): a whole, matching frame with the given kind byte. -/
  | unknownKind (station kind : Byte) (payload : List Byte)
  /-- ANSWER_SEND_START (R171): the first byte of the pending answer goes out. -/
  | answerSendStart
  /-- ANSWER_ABANDONED (R172): a byte arrives from the line while an answer is pending, or a byte read back while it is
  sent differs from the byte being sent or has a bad stop bit. -/
  | answerAbandoned (byte : Byte) (badStop : Bool)
  /-- ANSWER_COMPLETE (R173): the last check byte of the answer has been sent. -/
  | answerComplete
  | poll (station : Byte) (payload : List Byte)
  | write (station : Byte) (payload : List Byte)
  | readForm (station : Byte) (payload : List Byte)
  | status (station : Byte) (payload : List Byte)
  | stationSetup (station : Byte) (payload : List Byte)
  | stationRead (station : Byte) (payload : List Byte)
  | classSet (station : Byte) (payload : List Byte)
  | keymapSet (station : Byte) (payload : List Byte)
  | attentionRead (station : Byte) (payload : List Byte)
  | attentionClear (station : Byte) (payload : List Byte)
  | attentionMask (station : Byte) (payload : List Byte)
  | countersRead (station : Byte) (payload : List Byte)
  | broadcastMessage (station : Byte) (payload : List Byte)
  | restart (station : Byte) (payload : List Byte)
  | directoryRead (station : Byte) (payload : List Byte)
  | loadOpen (station : Byte) (payload : List Byte)
  | loadData (station : Byte) (payload : List Byte)
  | loadClose (station : Byte) (payload : List Byte)
  | loadAbandon (station : Byte) (payload : List Byte)
  | eraseSlots (station : Byte) (payload : List Byte)
  | protect (station : Byte) (payload : List Byte)
  /-- START_UP_SCAN_COMPLETE (R150). -/
  | startUpScanComplete
  /-- ROW_PROGRAM_COMPLETE (R158, R160): the row program in flight ends, with success or with failure. -/
  | rowProgramComplete (success : Bool)
  /-- SLOT_ERASE_COMPLETE (R163): the slot erase in flight ends, with success or with failure. -/
  | slotEraseComplete (success : Bool)
  /-- CONTROL_UPDATE_COMPLETE (R164): the control update in flight ends, with success or with failure. -/
  | controlUpdateComplete (success : Bool)
  /-- KEY_DOWN (R73): a KEY message, direction down. -/
  | keyDown (station : StationIx) (code : Byte) (time : Nat)
  /-- KEY_UP (R73): a KEY message, direction up. -/
  | keyUp (station : StationIx) (code : Byte) (time : Nat)
  /-- SCANCH (R115, R116): one scanner character. -/
  | scanch (station : StationIx) (char : Byte)
  /-- PAUSE (R40). -/
  | pause (station : StationIx)
  /-- RESUME (R40). -/
  | resume (station : StationIx)
  /-- PRESENT (R24). -/
  | present (station : StationIx)
  /-- LINK_BYTE_TIMEOUT (R193): more than 10 ms between two bytes of a terminal message. -/
  | linkByteTimeout (station : StationIx)
  /-- SILENCE_TIMER_EXPIRY (R26). -/
  | silenceTimerExpiry (station : StationIx)
  /-- REPEAT_TIMER_EXPIRY (R34). -/
  | repeatTimerExpiry (station : StationIx)
  /-- GAP_TIMER_EXPIRY (R35). -/
  | gapTimerExpiry (station : StationIx)
  /-- PROBE_TIMER_EXPIRY (R42). -/
  | probeTimerExpiry (station : StationIx)
  /-- START_MESSAGE (R38): DR chooses and starts a message. -/
  | startMessage (station : StationIx)
  /-- MESSAGE_COMPLETE (R39): the last byte of the link message in flight has been sent. -/
  | messageComplete (station : StationIx)
  /-- FRAME_FOR_OTHER_UNIT (R170): a whole frame for another unit, its check good or bad. -/
  | frameForOtherUnit
  /-- HOST_LINE_BYTE (R167): a byte on the host line, with a bad stop bit or a good one. -/
  | hostLineByte (byte : Byte) (badStop : Bool)
  /-- LINK_BYTE (R193): a byte from a terminal, with good parity or bad, and its time of arrival. -/
  | linkByte (station : StationIx) (byte : Byte) (parityOk : Bool) (time : Nat)
deriving DecidableEq, Repr

end Sys2Proof
end

