-- ==== Sys2Proof/Decode.lean ====
section
/-! DEFINITION. Reading a command from a word. spec/opcode_table.json gives no row of this block any bits (every row's
"fields" is empty and none has "fixed"), so no word spells a command. What the wires carry is read where the manual
puts it: host line bytes and frames in Machine/HostLine.lean, terminal bytes in Machine/Link.lean. -/

namespace Sys2Proof

/-- The command that a word of the table's bits spells: none, since no row has bits. -/
def decodeTableWord (_nbits _w : Nat) : Option Instr := none

end Sys2Proof
end

