-- ==== Sys2Proof/Config.lean ====
section
/-! DEFINITION. What the manual leaves open: free values, with no body, so that no proof can see what they are. -/

namespace Sys2Proof.Config

/-- The k-th free byte: what a byte of the template store holds after a program or an erase that failed or was
interrupted, where R152 does not say (logs 9 and 10). -/
opaque freeByte : Nat → Byte

/-- The k-th free choice: the order in which timers that run out in the same millisecond are taken, where the
manual says that either may be taken first (R26, R34, R117; log 6). -/
opaque tieBreak : Nat → Nat

/-- The reason code of NOT ERASED, for which section 11.1 has no entry (log 19). -/
opaque notErasedCode : Byte

end Sys2Proof.Config
end

