-- ==== Sys2Proof/Machine/State.lean ====
section
/-! DEFINITION. The state of the 2412 as plain data: every piece of state the manual gives the part (INVENTORY.md,
heading State), and its value right after a power-on reset. -/

namespace Sys2Proof.Machine

/-- A byte memory: (address, byte) pairs in rising address order, holding only the bytes that differ from what an
unlisted address reads as (`Memory.wf`, Machine/Ops.lean). -/
abbrev Memory := List Host.Cell

/-! ### Sheets (chapter 1) -/

/-- R4: whether the clerk may key into a field. -/
inductive Access where | input | fixed
deriving DecidableEq, Repr

/-- R4, R8: how a field's cells are presented. -/
inductive Presentation where | normal | bright | hidden
deriving DecidableEq, Repr

/-- R4, R111: where a field's entry is placed after a passed exit check. -/
inductive Justify where | left | rightBlank | rightZero
deriving DecidableEq, Repr

/-- R4, R110: the demand a field makes of its entry. -/
inductive FillRule where | none | full | entry
deriving DecidableEq, Repr

/-- The parts of a field that ALTER changes (R4, R61). -/
structure FieldProps where
  access     : Access
  presented  : Presentation
  justify    : Justify
  advance    : Bool
  alwaysSend : Bool
  cls        : Fin 16
  fill       : FillRule
deriving DecidableEq, Repr

/-- R4: one field of a sheet. -/
structure Field where
  number  : Nat
  start   : Nat
  length  : Nat
  props   : FieldProps
  touched : Bool
deriving DecidableEq, Repr

/-- R9: the band's five numbers f0, p, k, r0, h. -/
structure Band where
  firstField : Nat
  perItem    : Nat
  items      : Nat
  firstRow   : Nat
  height     : Nat
deriving DecidableEq, Repr

/-- R1: a station sheet. `cells` lists the cells that are not blank. -/
structure Sheet where
  rows   : Nat
  header : Nat
  cells  : Memory
  fields : List Field
  band   : Option Band
  cursor : Nat
  top    : Nat
  insert : Bool
  edited : Option Nat
deriving DecidableEq, Repr

/-- R2: the blank sheet of a given number of rows and header rows (R22: T = H, cursor 0). -/
def Sheet.blank (rows header : Nat) : Sheet :=
  { rows := rows, header := header, cells := [], fields := [], band := none, cursor := 0, top := header,
    insert := false, edited := none }

/-! ### Stations (chapters 2, 4, 5, 6) -/

/-- R23. -/
inductive LinkState where | disabled | detached | attached
deriving DecidableEq, Repr

/-- R30. -/
inductive InputState where | locked | entry | held | released | roomWait | waiting
deriving DecidableEq, Repr

/-- R96: the operator errors 01..10. -/
inductive OpError where
  | fixedCell | notAllowed | fieldFull | checkDigit | range | notNumeric | fillIncomplete | entryRequired
  | scanReject | tooLong
deriving DecidableEq, Repr

/-- R78: the moves. -/
inductive Move where
  | right | left | up | down | next | prev | home | newline | fieldEnd | pageUp | pageDown
deriving DecidableEq, Repr

/-- R78: the edit actions. -/
inductive Edit where | delete | rubout | clearField | clearInput | insert
deriving DecidableEq, Repr

/-- R78: what a key-down is translated into. -/
inductive Action where
  | none
  | char (c : Byte)
  | move (m : Move)
  | edit (e : Edit)
  | release (code : Byte)
  | releaseShort (code : Byte)
  | releaseUrgent (code : Byte)
  | signal
  | reset
  | shift
  | alt
deriving DecidableEq, Repr

/-- R32: the station profile. -/
structure Profile where
  enable       : Bool
  keyMap       : Fin 4
  repeatDelay  : Nat
  repeatPeriod : Nat
  chatter      : Nat
  suffix       : Byte
  gap          : Nat
  advance      : Bool
  releaseCode  : Byte
deriving DecidableEq, Repr

/-- R32: the profile after power-on reset and RESTART. -/
def Profile.atReset : Profile :=
  { enable := false, keyMap := 0, repeatDelay := 500, repeatPeriod := 100, chatter := 0, suffix := 0x0D#8,
    gap := 50, advance := true, releaseCode := 0x00#8 }

/-- R74: the chatter memory, a remembered key-up (code and time) and a suppressed code. -/
structure Chatter where
  keyUp      : Option (Byte × Nat)
  suppressed : Option Byte
deriving DecidableEq, Repr

/-- R34: a running repeat timer, with the repeating key and its action. No record: the timer is stopped. -/
structure Repeat where
  key    : Byte
  action : Action
  left   : Nat
deriving DecidableEq, Repr

/-- R114, R35: an open scan, with its buffer, overflow flag and running gap timer. No record: no scan is open. -/
structure Scan where
  buffer   : List Byte
  overflow : Bool
  gapLeft  : Nat
deriving DecidableEq, Repr

/-- R8: the looks a cell may be sent with. -/
inductive Look where | plain | bright | under | brightUnder | reverse
deriving DecidableEq, Repr

/-- Section 2.5: the messages DR sends, with the contents taken at the start (R37). -/
inductive LinkMessage where
  | line (number : Nat) (cells : List (Byte × Look))
  | cursor (line column : Nat) (visible : Bool)
  | alarm
  | probe
deriving DecidableEq, Repr

/-- R193: the part of a terminal message received so far. -/
inductive LinkPart where
  | keyLead
  | keyCode (code : Byte)
  | scanLead
deriving DecidableEq, Repr

/-- R36 to R42, R193: the display refresh unit of one station. -/
structure Refresh where
  stale       : Vector Bool 25
  cursorStale : Bool
  paused      : Bool
  alarm       : Bool
  inFlight    : Option LinkMessage
  silence     : Option Nat
  probe       : Option Nat
  rx          : Option (LinkPart × Nat)
deriving DecidableEq, Repr

/-- The display refresh unit of a disabled station (R29, R36 to R42). -/
def Refresh.atReset : Refresh :=
  { stale := Vector.replicate 25 false, cursorStale := false, paused := false, alarm := false, inFlight := none,
    silence := none, probe := none, rx := none }

/-- One station: its engine, scan assembler, display refresh unit and profile. -/
structure Station where
  link          : LinkState
  input         : InputState
  error         : Option OpError
  profile       : Profile
  sheet         : Sheet
  message       : Vector Byte 40
  typeAhead     : List Action
  shiftHolders  : List Byte
  altHolders    : List Byte
  chatter       : Chatter
  rep           : Option Repeat
  scan          : Option Scan
  dr            : Refresh
  keysDiscarded : BitVec 16
  scanRejects   : BitVec 16
deriving DecidableEq, Repr

/-- A station after power-on reset and RESTART (R2, R23, R30 to R32, R44, R74, R75, R86, R91, R114, R121). -/
def Station.atReset : Station :=
  { link := .disabled, input := .locked, error := none, profile := Profile.atReset, sheet := Sheet.blank 24 0,
    message := Vector.replicate 40 0x20#8, typeAhead := [], shiftHolders := [], altHolders := [],
    chatter := ⟨none, none⟩, rep := none, scan := none, dr := Refresh.atReset, keysDiscarded := 0, scanRejects := 0 }

/-! ### Classes (chapter 5) -/

/-- R94: the character sets. SET is `listed`. -/
inductive CharSet where | any | digits | letters | alnum | listed
deriving DecidableEq, Repr

/-- R94: the value rules. -/
inductive ValueRule where | none | mod10 | range
deriving DecidableEq, Repr

/-- R94: a class record. The permission map's entry for code 0x20 + j is bit 95 - j, so that the twelve map bytes read
high byte first are the number (section 11.2). -/
structure ClassRec where
  chars   : CharSet
  permits : BitVec 96
  fold    : Bool
  rule    : ValueRule
  low     : Nat
  high    : Nat
deriving DecidableEq, Repr

/-- R94: class 0, which is fixed, and classes 1..15 after reset. -/
def ClassRec.zero : ClassRec :=
  { chars := .any, permits := BitVec.allOnes 96, fold := false, rule := .none, low := 0, high := 0 }

/-! ### The release queue (chapter 7) -/

/-- R131. -/
inductive Priority where | normal | urgent
deriving DecidableEq, Repr

/-- R128: one entry of a release record. -/
structure Entry where
  number : Nat
  chars  : List Byte
deriving DecidableEq, Repr

/-- R131: a release record, with the station it came from and its size. -/
structure Record where
  station  : StationIx
  code     : Byte
  priority : Priority
  cursor   : Nat
  top      : Nat
  entries  : List Entry
  size     : Nat
deriving DecidableEq, Repr

/-- R130: an entry of the room-wait list. -/
structure RoomEntry where
  station  : StationIx
  code     : Byte
  priority : Priority
  full     : Bool
  size     : Nat
deriving DecidableEq, Repr

/-- R132: the release queue. -/
structure ReleaseQueue where
  staging : Nat
  queue   : List Record
  rooms   : List RoomEntry
deriving DecidableEq, Repr

/-! ### The template store (chapter 8) -/

/-- R145. -/
inductive SlotState where | unknown | erased | head | tail | dirty | loading
deriving DecidableEq, Repr

/-- R146: a directory entry. -/
structure DirEntry where
  form   : Byte
  first  : Nat
  count  : Nat
  length : Nat
deriving DecidableEq, Repr

/-- One row to be programmed: slot, row of the slot, the 64 bytes given (R143, R158, R160). -/
structure RowJob where
  slot  : Nat
  row   : Nat
  bytes : List Byte
deriving DecidableEq, Repr

/-- R151: the store operations. -/
inductive StoreOp where
  | startUpScan
  | rowProgram (job : RowJob)
  | slotErase (slot : Nat)
  | controlUpdate (group : Fin 16) (setting : Bool)
deriving DecidableEq, Repr

/-- R155: a load session. `closing` holds the closing length while the closing mark is set; `frameRows` is the number
of rows the LOAD DATA frame under way carried (R158). -/
structure Session where
  form       : Byte
  first      : Nat
  count      : Nat
  expected   : Nat
  begun      : List Nat
  failed     : Bool
  closing    : Option Nat
  abandoning : Bool
  frameRows  : Nat
deriving DecidableEq, Repr

/-- R148. -/
inductive Phase where | starting | running
deriving DecidableEq, Repr

/-- The template store. `rowsWaiting` and `erasesWaiting` are the steps of the present work not yet begun. -/
structure Store where
  mem           : Memory
  protect       : Vector Bool 16
  phase         : Phase
  slots         : Vector SlotState 64
  directory     : List DirEntry
  op            : Option StoreOp
  rowsWaiting   : List RowJob
  erasesWaiting : List Nat
  session       : Option Session
deriving DecidableEq, Repr

/-! ### The host line (chapter 9) -/

/-- R167, R168: the receiver; `bytes` are the frame bytes after the mark, oldest first; `gapLeft` is what is left of
the 20 ms between bytes (R169). -/
inductive Receiver where
  | hunting
  | inFrame (bytes : List Byte) (gapLeft : Nat)
deriving DecidableEq, Repr

/-- The up kinds (section 11.1). -/
inductive UpKind where | accept | refuse | release | nothing | formData | info | checkFail
deriving DecidableEq, Repr

/-- R171: an answer in flight, fixed at composition; pending until `sending`. `readBack` counts the bytes of its frame
that have gone out and been received again as they were sent (R172). `restart` marks the ACCEPT to a RESTART, whose
completion performs the restart (R173). -/
structure Answer where
  unit    : Byte
  station : Byte
  kind    : UpKind
  status  : Byte
  payload : List Byte
  restart : Bool
  sending : Bool
  readBack : Nat
deriving DecidableEq, Repr

/-! ### The whole machine -/

/-- The state of the 2412, and the queue of commands that wait. -/
structure State where
  unitAddr      : Byte
  lineRate      : BitVec 2
  receiver      : Receiver
  quietLeft     : Nat
  answer        : Option Answer
  checkFails    : BitVec 16
  framingErrors : BitVec 16
  refusals      : BitVec 16
  stations      : Vector Station 12
  classes       : Vector ClassRec 15
  keyMaps       : Memory
  rq            : ReleaseQueue
  store         : Store
  causes        : Vector Byte 13
  stationMask   : Byte
  ctlMask       : Byte
  freeCount     : Nat
  pending       : List Instr
deriving DecidableEq, Repr

/-- Why the machine would stop with a fault. The 2412 has none: every bad request, byte or message, every operator
error and every store failure has an effect that the manual gives (INVENTORY.md, heading Faults). Raised by nobody. -/
inductive Fault where
deriving DecidableEq, Repr

/-- Why a command would be refused by the model. -/
inductive Refusal where
  /-- The command has no meaning yet. Raised by an arm of `exec` only; safe, since the machine stops. -/
  | notModelled (mnemonic : String)
deriving DecidableEq, Repr

/-- The store while the start-up scan runs after a reset, over a given memory and protect flags (R145 to R148, R155). -/
def Store.starting (mem : Memory) (protect : Vector Bool 16) : Store :=
  { mem := mem, protect := protect, phase := .starting, slots := Vector.replicate 64 .unknown, directory := [],
    op := some .startUpScan, rowsWaiting := [], erasesWaiting := [], session := none }

/-- The machine right after a power-on reset with every strap at 0 (log 1), the store as shipped (R143; log 2), and
no command waiting. -/
def State.reset : State :=
  { unitAddr := 0x01#8, lineRate := 0, receiver := .hunting, quietLeft := 2, answer := none, checkFails := 0,
    framingErrors := 0, refusals := 0, stations := Vector.replicate 12 Station.atReset,
    classes := Vector.replicate 15 ClassRec.zero, keyMaps := [], rq := ⟨0, [], []⟩,
    store := Store.starting [] (Vector.replicate 16 false), causes := Vector.replicate 13 0x00#8,
    stationMask := 0x0F#8, ctlMask := 0x07#8, freeCount := 0, pending := [] }

end Sys2Proof.Machine
end

