-- ==== Sys2Proof/Machine/Ops.lean ====
section
/-! DEFINITION. The named operations over memories, stations, the attention register and free values. -/

namespace Sys2Proof.Machine

/-! ### Byte memories

A memory lists only the bytes that differ from `dflt`, the byte an unlisted address reads as: blank for the cells of a
sheet, 0xFF for the template store (R143), map 0's entry bytes for the key maps (R76). -/

/-- The canonical form of a memory: addresses strictly rising, no entry equal to what an unlisted address reads as. -/
abbrev Memory.wf (dflt : Nat → Byte) (m : Memory) : Prop :=
  m.Pairwise (fun c d => c.1 < d.1) ∧ ∀ c ∈ m, c.2 ≠ dflt c.1

/-- One byte of a memory. -/
def Memory.read (dflt : Nat → Byte) : Memory → Nat → Byte
  | [], a => dflt a
  | c :: m, a => if c.1 = a then c.2 else Memory.read dflt m a

/-- Write one byte, keeping the canonical form: the default byte is not listed. -/
def Memory.write (dflt : Nat → Byte) : Memory → Nat → Byte → Memory
  | [], a, v => if v = dflt a then [] else [(a, v)]
  | c :: m, a, v =>
    if a < c.1 then (if v = dflt a then c :: m else (a, v) :: c :: m)
    else if a = c.1 then (if v = dflt a then m else (a, v) :: m)
    else c :: Memory.write dflt m a v

/-- Write consecutive bytes from an address on. -/
def Memory.writeList (dflt : Nat → Byte) : Memory → Nat → List Byte → Memory
  | m, _, [] => m
  | m, a, v :: vs => Memory.writeList dflt (Memory.write dflt m a v) (a + 1) vs

/-- The n bytes from an address on. -/
def Memory.readList (dflt : Nat → Byte) (m : Memory) (a n : Nat) : List Byte :=
  (List.range n).map fun i => Memory.read dflt m (a + i)

/-- Blank, the character an untouched cell of a sheet holds (R2). -/
def blankChar : Byte := 0x20#8

/-- What a cell of a sheet that is not listed holds. -/
def cellDefault (_ : Nat) : Byte := blankChar

/-- What a byte of the template store that is not listed reads as: an erased byte reads 0xFF (R143). -/
def storeDefault (_ : Nat) : Byte := 0xFF#8

/-! ### Stations -/

/-- The station of an index. -/
def State.station (s : State) (n : StationIx) : Station := s.stations[n]

/-- Replace one station. -/
def State.setStation (s : State) (n : StationIx) (st : Station) : State :=
  { s with stations := s.stations.set n.1 st n.2 }

/-- Change one station by a function. -/
def State.onStation (s : State) (n : StationIx) (f : Station → Station) : State :=
  s.setStation n (f (s.station n))

/-- The station number byte of an index (1..12). -/
def stationByte (n : StationIx) : Byte := BitVec.ofNat 8 (n.1 + 1)

/-- The station a station byte 1..12 names. -/
def stationOf (b : Byte) : Option StationIx :=
  if h : 1 ≤ b.toNat ∧ b.toNat ≤ 12 then some ⟨b.toNat - 1, by omega⟩ else none

/-! ### The attention register (R186) -/

/-- The cause set of a station 1..12. -/
def causeIx (n : StationIx) : Fin 13 := n.succ

/-- Raising causes: those already set stay set. -/
def State.raiseAt (s : State) (i : Fin 13) (bits : Byte) : State :=
  { s with causes := s.causes.set i.1 (s.causes[i] ||| bits) i.2 }

/-- Raising a cause of a station. -/
def State.raise (s : State) (n : StationIx) (bits : Byte) : State := s.raiseAt (causeIx n) bits

/-- Raising a cause of station 0. -/
def State.raiseCtl (s : State) (bits : Byte) : State := s.raiseAt 0 bits

/-- R186: the cause bits of a station (section 11.1). -/
def causeAttached : Byte := 0x01#8
def causeDetached : Byte := 0x02#8
def causeSignal : Byte := 0x04#8
def causeTypeAheadFull : Byte := 0x08#8

/-- R186: the cause bits of station 0 (section 11.1). -/
def causeStoreDone : Byte := 0x01#8
def causeStoreFault : Byte := 0x02#8
def causeScanDirty : Byte := 0x04#8

/-! ### Free values -/

/-- The next k free bytes, and the state with the counter moved on. -/
def State.takeFree (s : State) (k : Nat) : List Byte × State :=
  ((List.range k).map (fun i => Config.freeByte (s.freeCount + i)), { s with freeCount := s.freeCount + k })

end Sys2Proof.Machine
end

