-- ==== Sys2Proof/Machine/Operands.lean ====
section
/-! DEFINITION. The operand forms: numbers of several bytes, ranges, and the codes of chapter 11, in both directions. -/

namespace Sys2Proof.Machine

/-! ### Numbers and characters -/

/-- A number sent high byte first (00_scope.md section 6). -/
def number (bytes : List Byte) : Nat := bytes.foldl (fun acc b => acc * 256 + b.toNat) 0

/-- A number as one byte. -/
def byte1 (n : Nat) : Byte := BitVec.ofNat 8 n

/-- A number as two bytes, high byte first. -/
def bytes2 (n : Nat) : List Byte := [BitVec.ofNat 8 (n / 256), BitVec.ofNat 8 n]

/-- The printable set 0x20..0x7E. -/
def printable (b : Byte) : Bool := decide (0x20 ≤ b.toNat ∧ b.toNat ≤ 0x7E)

/-- R57, R58, R65, R190: a byte outside the printable set is stored as '?'. -/
def toPrintable (b : Byte) : Byte := if printable b then b else 0x3F#8

/-- How many bytes `toPrintable` replaces. -/
def substitutions (l : List Byte) : Nat := (l.filter fun b => !printable b).length

/-- A clamped operand is brought to the nearest end of its range (00_scope.md section 6). -/
def clamp (low high n : Nat) : Nat := max low (min n high)

/-- A flag byte: 0 is no, any other value yes (R32, R184). -/
def flagByte (b : Byte) : Bool := b != 0x00#8

/-- A flag in an answer: 0 no, 1 yes. -/
def flagCode (f : Bool) : Byte := if f then 0x01#8 else 0x00#8

/-- The 40 characters of a message area, padded with blanks (R44). -/
def messageArea (chars : List Byte) : Vector Byte 40 := Vector.ofFn fun i => chars.getD i.1 blankChar

/-! ### Fields (section 11.3) -/

/-- The class a class byte names: 0..15. -/
def classOf (b : Byte) : Option (Fin 16) := if h : b.toNat < 16 then some ⟨b.toNat, h⟩ else none

/-- R53: a show code with no meaning is taken as NORMAL. -/
def presentationOf (code : Nat) : Presentation :=
  match code with
  | 1 => .bright
  | 2 => .hidden
  | _ => .normal

/-- R53: a justify code with no meaning is taken as LEFT. -/
def justifyOf (code : Nat) : Justify :=
  match code with
  | 1 => .rightBlank
  | 2 => .rightZero
  | _ => .left

/-- R53: a fill-rule value with no meaning is taken as NONE. -/
def fillRuleOf (b : Byte) : FillRule :=
  match b.toNat with
  | 1 => .full
  | 2 => .entry
  | _ => .none

/-- The properties octet, class and fill rule of FIELD, ALTER and the template field record. -/
def fieldPropsOf (octet : Byte) (cls : Fin 16) (fill : Byte) : FieldProps :=
  { access := if octet.getLsbD 0 then .input else .fixed
    presented := presentationOf (octet.toNat / 2 % 4)
    justify := justifyOf (octet.toNat / 8 % 4)
    advance := octet.getLsbD 5
    alwaysSend := octet.getLsbD 6
    cls := cls
    fill := fillRuleOf fill }

/-! ### State codes carried in answers (section 11.1) -/

def LinkState.code : LinkState → Byte
  | .disabled => 0x00#8
  | .detached => 0x01#8
  | .attached => 0x02#8

def InputState.code : InputState → Byte
  | .locked => 0x00#8
  | .entry => 0x01#8
  | .held => 0x02#8
  | .released => 0x03#8
  | .roomWait => 0x04#8
  | .waiting => 0x05#8

def Phase.code : Phase → Byte
  | .starting => 0x00#8
  | .running => 0x01#8

/-- The store operation codes: 0 NONE, 1 START-UP SCAN, 2 ROW PROGRAM, 3 SLOT ERASE, 4 CONTROL UPDATE. -/
def storeOpCode : Option StoreOp → Byte
  | none => 0x00#8
  | some .startUpScan => 0x01#8
  | some (.rowProgram _) => 0x02#8
  | some (.slotErase _) => 0x03#8
  | some (.controlUpdate _ _) => 0x04#8

/-- The session state codes: 0 NONE, 1 OPEN, 2 FAILED; an abandoning session reads as it was (R181). -/
def sessionCode : Option Session → Byte
  | none => 0x00#8
  | some ss => if ss.failed then 0x02#8 else 0x01#8

/-- The slot state codes. UNKNOWN has none: DIRECTORY READ is not answered while slots are UNKNOWN (R191). -/
def SlotState.code : SlotState → Byte
  | .unknown => 0x00#8
  | .erased => 0x01#8
  | .head => 0x02#8
  | .tail => 0x03#8
  | .dirty => 0x04#8
  | .loading => 0x05#8

def Priority.code : Priority → Byte
  | .normal => 0x00#8
  | .urgent => 0x01#8

/-- R31, R96: the error code, 00 when there is none. -/
def errorNumber : Option OpError → Nat
  | none => 0
  | some .fixedCell => 1
  | some .notAllowed => 2
  | some .fieldFull => 3
  | some .checkDigit => 4
  | some .range => 5
  | some .notNumeric => 6
  | some .fillIncomplete => 7
  | some .entryRequired => 8
  | some .scanReject => 9
  | some .tooLong => 10

def Look.code : Look → Byte
  | .plain => 0x00#8
  | .bright => 0x01#8
  | .under => 0x02#8
  | .brightUnder => 0x03#8
  | .reverse => 0x04#8

def UpKind.code : UpKind → Byte
  | .accept => 0x80#8
  | .refuse => 0x81#8
  | .release => 0x82#8
  | .nothing => 0x83#8
  | .formData => 0x84#8
  | .info => 0x85#8
  | .checkFail => 0x86#8

/-! ### Down kinds (section 11.1) -/

/-- The kinds of frame the host may send. -/
inductive DownKind where
  | poll | write | readForm | status | stationSetup | stationRead | classSet | keymapSet | attentionRead
  | attentionClear | attentionMask | countersRead | broadcastMessage | restart | directoryRead | loadOpen | loadData
  | loadClose | loadAbandon | eraseSlots | protect
deriving DecidableEq, Repr

def DownKind.code : DownKind → Byte
  | .poll => 0x01#8
  | .write => 0x02#8
  | .readForm => 0x03#8
  | .status => 0x10#8
  | .stationSetup => 0x11#8
  | .stationRead => 0x12#8
  | .classSet => 0x13#8
  | .keymapSet => 0x14#8
  | .attentionRead => 0x15#8
  | .attentionClear => 0x16#8
  | .attentionMask => 0x19#8
  | .countersRead => 0x1A#8
  | .broadcastMessage => 0x1B#8
  | .restart => 0x1C#8
  | .directoryRead => 0x1D#8
  | .loadOpen => 0x20#8
  | .loadData => 0x21#8
  | .loadClose => 0x22#8
  | .loadAbandon => 0x23#8
  | .eraseSlots => 0x24#8
  | .protect => 0x25#8

/-- The kind a kind byte names; every code that is not in the table is unknown. -/
def DownKind.ofByte (b : Byte) : Option DownKind :=
  match b.toNat with
  | 0x01 => some .poll
  | 0x02 => some .write
  | 0x03 => some .readForm
  | 0x10 => some .status
  | 0x11 => some .stationSetup
  | 0x12 => some .stationRead
  | 0x13 => some .classSet
  | 0x14 => some .keymapSet
  | 0x15 => some .attentionRead
  | 0x16 => some .attentionClear
  | 0x19 => some .attentionMask
  | 0x1A => some .countersRead
  | 0x1B => some .broadcastMessage
  | 0x1C => some .restart
  | 0x1D => some .directoryRead
  | 0x20 => some .loadOpen
  | 0x21 => some .loadData
  | 0x22 => some .loadClose
  | 0x23 => some .loadAbandon
  | 0x24 => some .eraseSlots
  | 0x25 => some .protect
  | _ => none

/-! ### Key map entries and actions (section 11.3, R77) -/

def moveOf (argument : Byte) : Option Move :=
  match argument.toNat with
  | 0 => some .right
  | 1 => some .left
  | 2 => some .up
  | 3 => some .down
  | 4 => some .next
  | 5 => some .prev
  | 6 => some .home
  | 7 => some .newline
  | 8 => some .fieldEnd
  | 9 => some .pageUp
  | 10 => some .pageDown
  | _ => none

def editOf (argument : Byte) : Option Edit :=
  match argument.toNat with
  | 0 => some .delete
  | 1 => some .rubout
  | 2 => some .clearField
  | 3 => some .clearInput
  | 4 => some .insert
  | _ => none

/-- R77, R78: a release code is 0x01..0xEF. -/
def releaseCodeOk (code : Byte) : Bool := decide (1 ≤ code.toNat ∧ code.toNat ≤ 0xEF)

/-- R77: the action an entry names; an entry that names no usable action is NONE. -/
def actionOf (kind argument : Byte) : Action :=
  match kind.toNat with
  | 1 => if printable argument then .char argument else .none
  | 2 => ((moveOf argument).map Action.move).getD .none
  | 3 => ((editOf argument).map Action.edit).getD .none
  | 4 => if releaseCodeOk argument then .release argument else .none
  | 5 => if releaseCodeOk argument then .releaseShort argument else .none
  | 6 => if releaseCodeOk argument then .releaseUrgent argument else .none
  | 7 => .signal
  | 8 => .reset
  | 9 => .shift
  | 10 => .alt
  | _ => .none

/-- R78: which actions repeat while their key is held. -/
def Action.repeatable : Action → Bool
  | .char _ => true
  | .move _ => true
  | .edit .delete => true
  | .edit .rubout => true
  | _ => false

end Sys2Proof.Machine
end

