-- ==== Sys2Proof/Machine/SheetOps.lean ====
section
/-! DEFINITION. Chapter 1: addresses, fields, the band, the targets of moves and the view, as functions of one sheet. -/

namespace Sys2Proof.Machine

/-! ### Addresses and cells (R1, R3) -/

/-- N, the number of cells. -/
def Sheet.size (sh : Sheet) : Nat := sh.rows * 80

/-- S, the number of view lines that scroll. -/
def Sheet.scroll (sh : Sheet) : Nat := 24 - sh.header

/-- The character of a cell. -/
def Sheet.cell (sh : Sheet) (a : Nat) : Byte := Memory.read cellDefault sh.cells a

/-- Write characters into consecutive cells. -/
def Sheet.putCells (sh : Sheet) (a : Nat) (chars : List Byte) : Sheet :=
  { sh with cells := Memory.writeList cellDefault sh.cells a chars }

/-- The row of the cursor. -/
def Sheet.cursorRow (sh : Sheet) : Nat := sh.cursor / 80

/-! ### Fields (R4 to R7) -/

/-- The address lies in the field. -/
def Field.covers (f : Field) (a : Nat) : Bool := decide (f.start ≤ a ∧ a < f.start + f.length)

def Field.isInput (f : Field) : Bool := f.props.access == .input

/-- The field's last cell. -/
def Field.last (f : Field) : Nat := f.start + f.length - 1

/-- R5: the field that holds an address. -/
def Sheet.fieldAt (sh : Sheet) (a : Nat) : Option Field := sh.fields.find? fun f => f.covers a

/-- The INPUT field that holds an address. -/
def Sheet.inputAt (sh : Sheet) (a : Nat) : Option Field := (sh.fieldAt a).filter Field.isInput

/-- R5: the field that carries a number. -/
def Sheet.fieldNumbered (sh : Sheet) (k : Nat) : Option Field := sh.fields.find? fun f => f.number == k

/-- The characters of a field's cells. -/
def Sheet.content (sh : Sheet) (f : Field) : List Byte := Memory.readList cellDefault sh.cells f.start f.length

/-- The field held in the edited-field register (R12). -/
def Sheet.editedField (sh : Sheet) : Option Field := sh.edited.bind sh.fieldNumbered

/-- The list with a field in its place in start order (R6). -/
def insertByStart (f : Field) : List Field → List Field
  | [] => [f]
  | g :: gs => if f.start < g.start then f :: g :: gs else g :: insertByStart f gs

/-- R6: insert a field in start order. -/
def Sheet.insertField (sh : Sheet) (f : Field) : Sheet := { sh with fields := insertByStart f sh.fields }

/-- R6: remove a field; the edited-field register is cleared when it holds it. -/
def Sheet.dropField (sh : Sheet) (k : Nat) : Sheet :=
  { sh with fields := sh.fields.filter (fun f => f.number != k)
            edited := if sh.edited = some k then none else sh.edited }

/-- Change the field that carries a number. -/
def Sheet.changeField (sh : Sheet) (k : Nat) (change : Field → Field) : Sheet :=
  { sh with fields := sh.fields.map fun f => if f.number = k then change f else f }

/-- R7: set the touched flag of a field. -/
def Sheet.touch (sh : Sheet) (k : Nat) : Sheet := sh.changeField k fun f => { f with touched := true }

/-- R64, R67: clear the touched flag of every field. -/
def Sheet.untouchAll (sh : Sheet) : Sheet :=
  { sh with fields := sh.fields.map fun f => { f with touched := false } }

/-- R64, R104: clear the touched flag of every INPUT field. -/
def Sheet.untouchInput (sh : Sheet) : Sheet :=
  { sh with fields := sh.fields.map fun f => if f.isInput then { f with touched := false } else f }

/-- A field fits the sheet and its table: R5's limits, as FIELD checks them (R59). -/
def Sheet.accepts (sh : Sheet) (f : Field) : Bool :=
  decide (1 ≤ f.number ∧ f.number ≤ 160) && decide (1 ≤ f.length ∧ f.length ≤ 255) &&
    decide (f.start + f.length ≤ sh.size) &&
    sh.fields.all fun g => g.number != f.number && decide (f.start + f.length ≤ g.start ∨ g.start + g.length ≤ f.start)

/-! ### The band (R9, R10) -/

/-- R9: the conditions of a valid band on a sheet of the given rows and header rows. -/
def Band.valid (b : Band) (rows header : Nat) : Bool :=
  decide (1 ≤ b.perItem ∧ 1 ≤ b.items ∧ 1 ≤ b.firstField ∧ b.firstField + b.perItem * b.items ≤ 161 ∧
    1 ≤ b.height ∧ b.height ≤ 8 ∧ header ≤ b.firstRow ∧ b.firstRow + b.items * b.height ≤ rows)

/-- R10: the number of band field (i, j). -/
def Sheet.bandField (sh : Sheet) (i j : Nat) : Option Nat :=
  match sh.band with
  | some b => if i < b.items ∧ j < b.perItem then some (b.firstField + i * b.perItem + j) else none
  | none => none

/-- R10: the row of band instance i. -/
def Sheet.bandRow (sh : Sheet) (i : Nat) : Option Nat :=
  match sh.band with
  | some b => if i < b.items then some (b.firstRow + i * b.height) else none
  | none => none

/-! ### The view (R19 to R21) -/

/-- R19: the greatest view top, R - 24 + H. -/
def Sheet.maxTop (sh : Sheet) : Nat := sh.rows - 24 + sh.header

/-- R19: a requested view top brought into its range. -/
def Sheet.clampTop (sh : Sheet) (t : Nat) : Nat := max sh.header (min t sh.maxTop)

/-- R20: the view top that the follow rule gives for a cursor row and a view top. -/
def Sheet.followTop (sh : Sheet) (row top : Nat) : Nat :=
  if row < sh.header then top
  else if row < top then row
  else if top + sh.scroll ≤ row then row - sh.scroll + 1
  else top

/-- R21: the sheet row that display line `line` (0..23) shows. -/
def Sheet.rowOnLine (sh : Sheet) (line : Nat) : Nat :=
  if line < sh.header then line else sh.top + (line - sh.header)

/-- R21: the display line that shows a row. -/
def Sheet.lineOfRow (sh : Sheet) (row : Nat) : Option Nat :=
  if row < sh.header then some row
  else if sh.top ≤ row ∧ row < sh.top + sh.scroll then some (row - sh.top + sh.header)
  else none

/-! ### The targets of operator moves (R14 to R18) -/

/-- The starts of the INPUT fields, in address order. -/
def Sheet.inputStarts (sh : Sheet) : List Nat := (sh.fields.filter Field.isInput).map Field.start

/-- R15: HOME. -/
def Sheet.homeTarget (sh : Sheet) : Nat := sh.inputStarts.headD 0

/-- R15: NEXT. -/
def Sheet.nextTarget (sh : Sheet) : Nat :=
  (sh.inputStarts.find? fun a => decide (sh.cursor < a)).getD sh.homeTarget

/-- R15: PREV. -/
def Sheet.prevTarget (sh : Sheet) : Nat :=
  ((sh.inputStarts.filter fun a => decide (a < sh.cursor)).getLast?).getD (sh.inputStarts.getLastD 0)

/-- R16: NEWLINE. -/
def Sheet.newlineTarget (sh : Sheet) : Nat :=
  let below := (sh.cursorRow + 1) * 80
  match sh.inputStarts with
  | [] => below % sh.size
  | first :: rest => ((first :: rest).find? fun a => decide (below ≤ a)).getD first

/-- The characters of a list without its trailing blanks. -/
def dropTrailing (chars : List Byte) : List Byte := (chars.reverse.dropWhile fun b => b == blankChar).reverse

/-- R17: FIELD END; none outside an INPUT field. -/
def Sheet.fieldEndTarget (sh : Sheet) : Option Nat :=
  (sh.inputAt sh.cursor).map fun f => min (f.start + (dropTrailing (sh.content f)).length) f.last

/-- R18: the target cursor and view top of a PAGE move to the view top `top`; none when it does not scroll. -/
def Sheet.pageTarget (sh : Sheet) (top : Nat) : Option (Nat × Nat) :=
  if sh.cursorRow < sh.header ∨ top = sh.top then none
  else
    let row := max sh.header (min (sh.cursorRow + top - sh.top) (sh.rows - 1))
    some (row * 80 + sh.cursor % 80, top)

/-- R14 to R18: the target of a move, with a target view top for PAGE; none when the move has no target. -/
def Sheet.target (sh : Sheet) : Move → Option (Nat × Option Nat)
  | .right => some ((sh.cursor + 1) % sh.size, none)
  | .left => some ((sh.cursor + sh.size - 1) % sh.size, none)
  | .up => some ((sh.cursor + sh.size - 80) % sh.size, none)
  | .down => some ((sh.cursor + 80) % sh.size, none)
  | .next => some (sh.nextTarget, none)
  | .prev => some (sh.prevTarget, none)
  | .home => some (sh.homeTarget, none)
  | .newline => some (sh.newlineTarget, none)
  | .fieldEnd => sh.fieldEndTarget.map fun a => (a, none)
  | .pageUp => (sh.pageTarget (sh.clampTop (sh.top - sh.scroll))).map fun p => (p.1, some p.2)
  | .pageDown => (sh.pageTarget (sh.clampTop (sh.top + sh.scroll))).map fun p => (p.1, some p.2)

/-! ### Looks (R8) -/

/-- R8: the character and look a cell is sent with. -/
def Sheet.shown (sh : Sheet) (a : Nat) : Byte × Look :=
  match sh.fieldAt a with
  | none => (sh.cell a, .plain)
  | some f =>
    match f.props.access, f.props.presented with
    | .fixed, .normal => (sh.cell a, .plain)
    | .fixed, .bright => (sh.cell a, .bright)
    | .fixed, .hidden => (blankChar, .plain)
    | .input, .normal => (sh.cell a, .under)
    | .input, .bright => (sh.cell a, .brightUnder)
    | .input, .hidden => (blankChar, .under)

end Sys2Proof.Machine
end

