-- ==== Sys2Proof/Machine/Checks.lean ====
section
/-! DEFINITION. Classes, entries, value checks and justification (sections 5.1, 5.5, 5.6). -/

namespace Sys2Proof.Machine

/-! ### Classes (R94, R95) -/

/-- The record of a class: class 0 is fixed, 1..15 are held by the table unit. -/
def classRec (tu : Vector ClassRec 15) (k : Fin 16) : ClassRec :=
  if h : k.1 = 0 then ClassRec.zero else tu[k.1 - 1]'(by omega)

def isDigit (c : Byte) : Bool := decide (0x30 ≤ c.toNat ∧ c.toNat ≤ 0x39)
def isUpper (c : Byte) : Bool := decide (0x41 ≤ c.toNat ∧ c.toNat ≤ 0x5A)
def isLower (c : Byte) : Bool := decide (0x61 ≤ c.toNat ∧ c.toNat ≤ 0x7A)

/-- R95: folding raises a lower-case letter to upper case when the class folds. -/
def ClassRec.foldChar (k : ClassRec) (c : Byte) : Byte := if k.fold && isLower c then c - 0x20#8 else c

/-- R94: the permission map's entry for a code 0x20..0x7F. -/
def ClassRec.mapPermits (k : ClassRec) (c : Byte) : Bool :=
  decide (0x20 ≤ c.toNat ∧ c.toNat ≤ 0x7F) && k.permits.getLsbD (95 - (c.toNat - 0x20))

/-- R95: whether the class's character set permits a character. A byte outside the printable set is permitted by no
class (R119); blank is permitted by every class. -/
def ClassRec.permitsChar (k : ClassRec) (c : Byte) : Bool :=
  printable c && (c == blankChar ||
    match k.chars with
    | .any => true
    | .digits => isDigit c
    | .letters => isUpper c || isLower c
    | .alnum => isDigit c || isUpper c || isLower c
    | .listed => k.mapPermits c)

/-! ### Entries (R106) -/

/-- The content with its leading and trailing blanks removed. -/
def entryOf (content : List Byte) : List Byte := (dropTrailing content).dropWhile fun b => b == blankChar

/-! ### Value checks (R107 to R110) -/

/-- The value of a digit. -/
def digitValue (c : Byte) : Nat := c.toNat - 0x30

/-- R108: the weighted sum of digits taken from the rightmost on, the first weighted 3 when `three`. -/
def weightedSum : Bool → List Byte → Nat
  | _, [] => 0
  | three, c :: cs => (if three then 3 * digitValue c else digitValue c) + weightedSum (!three) cs

/-- R108: the check value of the payload digits, given right to left. -/
def checkValue (payloadReversed : List Byte) : Nat := (10 - weightedSum true payloadReversed % 10) % 10

/-- R108: MOD10 on a non-empty entry. -/
def mod10Check (entry : List Byte) : Option OpError :=
  if entry.all isDigit then
    match entry.reverse with
    | check :: p :: ps => if checkValue (p :: ps) = digitValue check then none else some .checkDigit
    | _ => some .checkDigit
  else some .notNumeric

/-- The number a list of digits reads as. -/
def decimal (digits : List Byte) : Nat := digits.foldl (fun acc c => acc * 10 + digitValue c) 0

/-- R109: RANGE on a non-empty entry. -/
def rangeCheck (low high : Nat) (entry : List Byte) : Option OpError :=
  if entry.all isDigit then
    if 9 < entry.length then some .range
    else if low ≤ decimal entry ∧ decimal entry ≤ high then none else some .range
  else some .notNumeric

/-- R107: the class rule on a non-empty entry. -/
def ruleCheck (k : ClassRec) (entry : List Byte) : Option OpError :=
  match k.rule with
  | .none => none
  | .mod10 => mod10Check entry
  | .range => rangeCheck k.low k.high entry

/-- R110: the FULL demand on a field whose entry is not empty. -/
def fullCheck (fill : FillRule) (content : List Byte) : Option OpError :=
  if fill = .full ∧ content.any (fun c => c == blankChar) then some .fillIncomplete else none

/-- R107: the value checks of a field's content; an empty entry passes. -/
def valueChecks (k : ClassRec) (fill : FillRule) (content : List Byte) : Option OpError :=
  if entryOf content = [] then none
  else (ruleCheck k (entryOf content)).or (fullCheck fill content)

/-- The value checks of a field of a sheet, as its class and fill rule stand. -/
def Sheet.valueChecks (sh : Sheet) (tu : Vector ClassRec 15) (f : Field) : Option OpError :=
  Machine.valueChecks (classRec tu f.props.cls) f.props.fill (sh.content f)

/-! ### Justification (R111) -/

/-- The content of a field after justification. -/
def justified (j : Justify) (content : List Byte) : List Byte :=
  if entryOf content = [] then content
  else match j with
    | .left => content
    | .rightBlank => List.replicate (content.length - (entryOf content).length) blankChar ++ entryOf content
    | .rightZero => List.replicate (content.length - (entryOf content).length) 0x30#8 ++ entryOf content

end Sys2Proof.Machine
end

