-- ==== Sys2Proof/Machine/RefreshOps.lean ====
section
/-! DEFINITION. Display refresh (section 2.5, 2.6): the stale set, the changes of a station that mark it, and the
messages DR composes and starts. -/

namespace Sys2Proof.Machine

/-! ### The stale set (R36) and the pending ALARM (R41) -/

def Station.attached (st : Station) : Bool := st.link == .attached

/-- Mark the display lines for which `p` holds; while the link is not ATTACHED nothing is marked. -/
def Station.markLines (st : Station) (p : Nat → Bool) : Station :=
  if st.attached then
    { st with dr := { st.dr with stale := Vector.ofFn fun i : Fin 25 => st.dr.stale[i] || p i.1 } }
  else st

/-- Set the cursor-stale flag while the link is ATTACHED. -/
def Station.markCursor (st : Station) : Station :=
  if st.attached then { st with dr := { st.dr with cursorStale := true } } else st

/-- R44: mark the indicator line. -/
def Station.markIndicator (st : Station) : Station := st.markLines fun line => line == 24

/-- Display line `line` shows one of the n cells from an address on. -/
def Sheet.lineShows (sh : Sheet) (a n line : Nat) : Bool :=
  decide (line < 24 ∧ 0 < n ∧ sh.rowOnLine line * 80 < a + n ∧ a < (sh.rowOnLine line + 1) * 80)

/-- Mark the displayed lines that hold one of the n cells from an address on. -/
def Station.markCells (st : Station) (a n : Nat) : Station := st.markLines (st.sheet.lineShows a n)

/-- Mark the displayed lines that hold a cell of a field (R6). -/
def Station.markField (st : Station) (f : Field) : Station := st.markCells f.start f.length

/-- The marks of a replaced sheet and of an attach: lines 0..24 and the cursor. -/
def Station.markAll (st : Station) : Station := (st.markLines fun _ => true).markCursor

/-- R41: an ALARM request; discarded unless the link is ATTACHED. -/
def Station.requestAlarm (st : Station) : Station :=
  if st.attached then { st with dr := { st.dr with alarm := true } } else st

/-! ### Changes of a station with their marks -/

/-- Write cells (R1): each cell written marks its line, whether or not its character changed. -/
def Station.putCells (st : Station) (a : Nat) (chars : List Byte) : Station :=
  { st with sheet := st.sheet.putCells a chars }.markCells a chars.length

/-- A change of the cursor sets the cursor-stale flag (R13). -/
def Station.setCursor (st : Station) (a : Nat) : Station :=
  if st.sheet.cursor = a then st else { st with sheet := { st.sheet with cursor := a } }.markCursor

/-- A change of the view top marks lines H..23, line 24 and the cursor (R19). -/
def Station.setTop (st : Station) (t : Nat) : Station :=
  if st.sheet.top = t then st
  else ({ st with sheet := { st.sheet with top := t } }.markLines fun line =>
    decide (st.sheet.header ≤ line)).markCursor

/-- R20: the follow rule. -/
def Station.follow (st : Station) : Station := st.setTop (st.sheet.followTop st.sheet.cursorRow st.sheet.top)

/-- R22: the sheet is replaced as a whole. -/
def Station.replaceSheet (st : Station) (sh : Sheet) : Station := { st with sheet := sh }.markAll

/-- R12: the edited-field register. -/
def Station.setEdited (st : Station) (k : Option Nat) : Station := { st with sheet := { st.sheet with edited := k } }

/-- R11: a change of the insert flag marks line 24. -/
def Station.setInsert (st : Station) (f : Bool) : Station :=
  if st.sheet.insert = f then st else { st with sheet := { st.sheet with insert := f } }.markIndicator

/-- R30, R34, R44: a change of input state stops the repeat timer and marks line 24. -/
def Station.setInput (st : Station) (i : InputState) : Station :=
  if st.input = i then st else { st with input := i, rep := none }.markIndicator

/-- R44: setting the message area marks line 24, even when the message is the same. -/
def Station.setMessage (st : Station) (chars : List Byte) : Station :=
  { st with message := messageArea chars }.markIndicator

/-! ### The messages DR sends (R37, R43) -/

/-- Two decimal digits. -/
def twoDigits (n : Nat) : List Byte := [BitVec.ofNat 8 (0x30 + n / 10 % 10), BitVec.ofNat 8 (0x30 + n % 10)]

/-- R30: the indicator word, six characters. -/
def Station.indicatorWord (st : Station) : List Byte :=
  match st.input with
  | .locked => [0x4C#8, 0x4F#8, 0x43#8, 0x4B#8, 0x45#8, 0x44#8]
  | .entry => [0x52#8, 0x45#8, 0x41#8, 0x44#8, 0x59#8, 0x20#8]
  | .held => [0x45#8, 0x52#8, 0x52#8, 0x20#8] ++ twoDigits (errorNumber st.error)
  | .released => [0x53#8, 0x45#8, 0x4E#8, 0x54#8, 0x20#8, 0x20#8]
  | .roomWait => [0x57#8, 0x41#8, 0x49#8, 0x54#8, 0x20#8, 0x20#8]
  | .waiting => [0x53#8, 0x45#8, 0x4E#8, 0x54#8, 0x20#8, 0x20#8]

/-- R43: the characters of the indicator line after the word. -/
def Station.indicatorRest (st : Station) : List Byte :=
  [blankChar, if st.sheet.insert then 0x49#8 else blankChar, if st.scan.isSome then 0x53#8 else blankChar, blankChar] ++
    twoDigits (st.sheet.top + 1) ++ [0x2F#8] ++ twoDigits st.sheet.rows ++ List.replicate 25 blankChar ++
    st.message.toList

/-- R43: the indicator line; the word is REVERSE while the station is in HELD. -/
def Station.indicator (st : Station) : List (Byte × Look) :=
  st.indicatorWord.map (fun c => (c, if st.input = .held then .reverse else .plain)) ++
    st.indicatorRest.map fun c => (c, .plain)

/-- R37: the contents of a LINE for a display line 0..24. -/
def Station.lineMessage (st : Station) (line : Nat) : LinkMessage :=
  .line line <|
    if line = 24 then st.indicator
    else (List.range 80).map fun k => st.sheet.shown (st.sheet.rowOnLine line * 80 + k)

/-- R37: the contents of a CURSOR. -/
def Station.cursorMessage (st : Station) : LinkMessage :=
  match st.sheet.lineOfRow st.sheet.cursorRow with
  | some line => .cursor line (st.sheet.cursor % 80) true
  | none => .cursor 0 (st.sheet.cursor % 80) false

/-- The bytes of a message on the link (section 11.5). -/
def LinkMessage.bytes : LinkMessage → List Byte
  | .line k cells => [0x91#8, byte1 k] ++ cells.flatMap fun c => [c.1, c.2.code]
  | .cursor l c v => [0x92#8, byte1 l, byte1 c, flagCode v]
  | .alarm => [0x93#8]
  | .probe => [0x94#8]

/-- The lowest-numbered stale line of 0..23. -/
def Refresh.lowestStale (dr : Refresh) : Option (Fin 24) :=
  (List.finRange 24).find? fun i => dr.stale[i.castSucc]

/-- R38, R39: start a LINE, clearing its stale mark. -/
def Station.startLine (st : Station) (i : Fin 25) : Station :=
  { st with dr := { st.dr with stale := st.dr.stale.set i.1 false i.2, inFlight := some (st.lineMessage i.1) } }

/-- R38: DR's choice: a pending ALARM, line 24, the lowest stale line, a CURSOR, or nothing. It is made when the link
is ATTACHED, the pause flag is clear and no message is in flight. -/
def Station.startMessage (st : Station) : Station :=
  if st.attached ∧ st.dr.paused = false ∧ st.dr.inFlight = none then
    if st.dr.alarm then { st with dr := { st.dr with alarm := false, inFlight := some .alarm } }
    else if st.dr.stale[24] then st.startLine 24
    else match st.dr.lowestStale with
      | some i => st.startLine i.castSucc
      | none =>
        if st.dr.cursorStale then
          { st with dr := { st.dr with cursorStale := false, inFlight := some st.cursorMessage } }
        else st
  else st

/-- R39, R42: the message in flight is complete; the probe timer is loaded with 500. -/
def Station.completeMessage (st : Station) : Station :=
  match st.dr.inFlight with
  | some _ => { st with dr := { st.dr with inFlight := none, probe := some 500 } }
  | none => st

/-- R42: the probe timer runs out; a PROBE is sent when no message is in flight. -/
def Station.probeExpiry (st : Station) : Station :=
  match st.dr.probe with
  | none => st
  | some _ =>
    { st with dr := { st.dr with probe := none
                                 inFlight := match st.dr.inFlight with
                                   | some m => some m
                                   | none => some .probe } }

end Sys2Proof.Machine
end

