-- ==== Sys2Proof/Machine/Editing.lean ====
section
/-! DEFINITION. Operator errors, operator moves, the exit check, character entry and the edit actions (R13, R85 and
chapter 5), as functions of one station. `tu` is the table unit's classes 1..15. -/

namespace Sys2Proof.Machine

/-! ### Operator errors (R96) -/

/-- R96: the station enters HELD with an error code, an ALARM request and an emptied type-ahead queue. -/
def Station.enterHeld (st : Station) (e : OpError) : Station :=
  { st with input := .held, error := some e, rep := none, typeAhead := [] }.markIndicator.requestAlarm

/-! ### The exit check and operator moves (R13, R112, R113) -/

/-- R111: justify a field; LEFT and an empty entry rewrite nothing. -/
def Station.justifyField (st : Station) (f : Field) : Station :=
  if f.props.justify = .left ∨ entryOf (st.sheet.content f) = [] then st
  else st.putCells f.start (justified f.props.justify (st.sheet.content f))

/-- R112: what a passed exit check does: the field is justified and the register cleared. -/
def Station.passExit (st : Station) (f : Field) : Station := (st.justifyField f).setEdited none

/-- R13: the third step of an operator move: the cursor (and for PAGE the view top) is set, the cursor-stale flag is
set (R85, R104; log 17) and the follow rule is applied. -/
def Station.carryOut (st : Station) (target : Nat) (top : Option Nat) : Station :=
  ((st.setCursor target).markCursor.setTop (top.getD st.sheet.top)).follow

/-- R113, R127: the cursor returns to the field's start and the station enters HELD. -/
def Station.failCheck (st : Station) (f : Field) (e : OpError) : Station := (st.carryOut f.start none).enterHeld e

/-- R13: the edited field, when the cursor lies in it and the target does not. -/
def Sheet.leaving (sh : Sheet) (target : Nat) : Option Field :=
  sh.editedField.filter fun f => f.covers sh.cursor && !f.covers target

/-- R13: an operator move: the exit check when the move leaves the edited field, then the move itself. -/
def Station.operatorMove (st : Station) (tu : Vector ClassRec 15) (target : Nat) (top : Option Nat) : Station :=
  match st.sheet.leaving target with
  | none => st.carryOut target top
  | some f =>
    match st.sheet.valueChecks tu f with
    | none => (st.passExit f).carryOut target top
    | some e => st.failCheck f e

/-- R85: a MOVE action; a move with no target changes nothing. -/
def Station.moveAction (st : Station) (tu : Vector ClassRec 15) (m : Move) : Station :=
  match st.sheet.target m with
  | some (target, top) => st.operatorMove tu target top
  | none => st

/-! ### Character entry (R98 to R100) -/

/-- R7, R12: the clerk's change of a field sets its touched flag and makes it the edited field. -/
def Station.markEdited (st : Station) (f : Field) : Station :=
  { st with sheet := { st.sheet.touch f.number with edited := some f.number } }

/-- R99: the characters a store writes from the cursor on: in insert mode the cells up to the one before the field's
last move one to the right. -/
def Sheet.storedChars (sh : Sheet) (f : Field) (c : Byte) : List Byte :=
  if sh.insert then c :: Memory.readList cellDefault sh.cells sh.cursor (f.last - sh.cursor) else [c]

/-- R99: store a character at the cursor. -/
def Station.storeChar (st : Station) (f : Field) (c : Byte) : Station :=
  (st.putCells st.sheet.cursor (st.sheet.storedChars f c)).markEdited f

/-- R100: the move that follows a stored character: NEXT from the last cell of an advance field, otherwise RIGHT. -/
def Sheet.afterStore (sh : Sheet) (f : Field) : Nat :=
  if sh.cursor = f.last ∧ f.props.advance then sh.nextTarget else (sh.cursor + 1) % sh.size

/-- R98: the tests of a CHAR in field f, in order, on the folded character. -/
def Sheet.charFault (sh : Sheet) (tu : Vector ClassRec 15) (f : Field) (folded : Byte) : Option OpError :=
  if !(classRec tu f.props.cls).permitsChar folded then some .notAllowed
  else if sh.insert && sh.cell f.last != blankChar then some .fieldFull
  else none

/-- R98 to R100: a CHAR action. -/
def Station.charAction (st : Station) (tu : Vector ClassRec 15) (c : Byte) : Station :=
  match st.sheet.inputAt st.sheet.cursor with
  | none => st.enterHeld .fixedCell
  | some f =>
    match st.sheet.charFault tu f ((classRec tu f.props.cls).foldChar c) with
    | some e => st.enterHeld e
    | none =>
      (st.storeChar f ((classRec tu f.props.cls).foldChar c)).operatorMove tu (st.sheet.afterStore f) none

/-! ### Edit actions (R101 to R105) -/

/-- R101: the cells from the cursor to the field's last after a DELETE. -/
def Sheet.deletedChars (sh : Sheet) (f : Field) : List Byte :=
  Memory.readList cellDefault sh.cells (sh.cursor + 1) (f.last - sh.cursor) ++ [blankChar]

/-- R101: DELETE at the cursor in field f. -/
def Station.deleteIn (st : Station) (f : Field) : Station :=
  (st.putCells st.sheet.cursor (st.sheet.deletedChars f)).markEdited f

/-- R101: a DELETE action. -/
def Station.deleteAction (st : Station) : Station :=
  match st.sheet.inputAt st.sheet.cursor with
  | none => st.enterHeld .fixedCell
  | some f => st.deleteIn f

/-- R102: the INPUT field whose start the cursor is past. -/
def Sheet.rubField (sh : Sheet) : Option Field := (sh.inputAt sh.cursor).filter fun f => decide (f.start < sh.cursor)

/-- R102: a RUBOUT action. -/
def Station.ruboutAction (st : Station) (tu : Vector ClassRec 15) : Station :=
  match st.sheet.rubField with
  | some f => (st.operatorMove tu (st.sheet.cursor - 1) none).deleteIn f
  | none => st.operatorMove tu ((st.sheet.cursor + st.sheet.size - 1) % st.sheet.size) none

/-- R103: a CLEAR FIELD action. -/
def Station.clearFieldAction (st : Station) : Station :=
  match st.sheet.inputAt st.sheet.cursor with
  | none => st.enterHeld .fixedCell
  | some f =>
    (st.putCells st.sheet.cursor (List.replicate (f.start + f.length - st.sheet.cursor) blankChar)).markEdited f

/-- R64, R104: blank every cell of the INPUT fields of a list. -/
def Station.blankFields (st : Station) : List Field → Station
  | [] => st
  | f :: fs =>
    (if f.isInput then st.putCells f.start (List.replicate f.length blankChar) else st).blankFields fs

/-- R64, R104: the register cleared, every INPUT field blanked and untouched. -/
def Station.eraseInput (st : Station) : Station :=
  let st := (st.setEdited none).blankFields st.sheet.fields
  { st with sheet := st.sheet.untouchInput }

/-- R104: a CLEAR INPUT action. -/
def Station.clearInputAction (st : Station) (tu : Vector ClassRec 15) : Station :=
  st.eraseInput.operatorMove tu st.sheet.homeTarget none

/-- R101 to R105: an EDIT action. -/
def Station.editAction (st : Station) (tu : Vector ClassRec 15) : Edit → Station
  | .delete => st.deleteAction
  | .rubout => st.ruboutAction tu
  | .clearField => st.clearFieldAction
  | .clearInput => st.clearInputAction tu
  | .insert => st.setInsert (!st.sheet.insert)

end Sys2Proof.Machine
end

