-- ==== Sys2Proof/Machine/Releases.lean ====
section
/-! DEFINITION. The release action, release records, staging memory, the room-wait list and the form reader
(chapter 7). -/

namespace Sys2Proof.Machine

/-! ### Records (R128, R129, R131) -/

/-- R128: the entry of a field. -/
def Sheet.entryFor (sh : Sheet) (f : Field) : Entry := { number := f.number, chars := dropTrailing (sh.content f) }

/-- R128: whether a full release includes a field. -/
def Field.included (f : Field) : Bool := (f.isInput && f.touched) || f.props.alwaysSend

/-- R128: the entries of a release, in address order; a short release has none. -/
def Sheet.releaseEntries (sh : Sheet) (full : Bool) : List Entry :=
  if full then (sh.fields.filter Field.included).map sh.entryFor else []

/-- R129: the bytes an entry adds. -/
def Entry.size (e : Entry) : Nat := 2 + e.chars.length

/-- R129: the size of a record with the given entries. -/
def recordSize (entries : List Entry) : Nat := 6 + (entries.map Entry.size).sum

/-- Section 11.3: the bytes of an entry. -/
def Entry.bytes (e : Entry) : List Byte := [byte1 e.number, byte1 e.chars.length] ++ e.chars

/-- Section 11.3: the bytes of a release record. -/
def Record.bytes (r : Record) : List Byte :=
  [r.code, r.priority.code] ++ bytes2 r.cursor ++ [byte1 r.top, byte1 r.entries.length] ++ r.entries.flatMap Entry.bytes

/-! ### The checks of a release (R125 to R127) -/

/-- R125: the pending exit check; an error is the station stopped in HELD. -/
def Station.pendingExit (st : Station) (tu : Vector ClassRec 15) : Except Station Station :=
  match st.sheet.editedField with
  | none => .ok st
  | some f =>
    match st.sheet.valueChecks tu f with
    | none => .ok (st.passExit f)
    | some e => .error (st.failCheck f e)

/-- R126: how one field fails the field checks of a full release. -/
def Sheet.releaseFault (sh : Sheet) (tu : Vector ClassRec 15) (f : Field) : Option OpError :=
  if f.isInput then
    (if f.touched then sh.valueChecks tu f else none).or
      (if f.props.fill = .entry ∧ entryOf (sh.content f) = [] then some .entryRequired else none)
  else none

/-- R126: the first field that fails, with its code. -/
def Sheet.firstFault (sh : Sheet) (tu : Vector ClassRec 15) : List Field → Option (Field × OpError)
  | [] => none
  | f :: fs =>
    match sh.releaseFault tu f with
    | some e => some (f, e)
    | none => sh.firstFault tu fs

/-- R127: a failed field check: the cursor to the field's start, the register set to it, and HELD. -/
def Station.failRelease (st : Station) (f : Field) (e : OpError) : Station :=
  ((st.carryOut f.start none).setEdited (some f.number)).enterHeld e

/-- R126, R129: the field checks and the size check of a release whose pending exit check passed. -/
def Station.formChecks (st : Station) (tu : Vector ClassRec 15) (full : Bool) : Except Station Station :=
  match if full then st.sheet.firstFault tu st.sheet.fields else none with
  | some (f, e) => .error (st.failRelease f e)
  | none =>
    if 2048 < recordSize (st.sheet.releaseEntries full) then .error (st.enterHeld .tooLong) else .ok st

/-- R125: steps 1 to 3 of a release action. -/
def Station.releaseChecks (st : Station) (tu : Vector ClassRec 15) (full : Bool) : Except Station Station :=
  match st.pendingExit tu with
  | .error st => .error st
  | .ok st => st.formChecks tu full

/-! ### Staging memory and the room-wait list (R130, R132, R135) -/

/-- The staging memory: 8192 bytes. -/
def stagingSize : Nat := 8192

/-- R130: a record fits in the free staging space. -/
def ReleaseQueue.fits (q : ReleaseQueue) (size : Nat) : Bool := decide (q.staging + size ≤ stagingSize)

/-- R131: compose the record of a release from the sheet as it stands. -/
def Sheet.compose (sh : Sheet) (e : RoomEntry) : Record :=
  { station := e.station, code := e.code, priority := e.priority, cursor := sh.cursor, top := sh.top,
    entries := sh.releaseEntries e.full, size := recordSize (sh.releaseEntries e.full) }

/-- R132: the queue with a record appended. -/
def ReleaseQueue.append (q : ReleaseQueue) (r : Record) : ReleaseQueue :=
  { q with queue := q.queue ++ [r], staging := q.staging + r.size }

/-- R130, R135: compose and queue a station's record; the station enters RELEASED. -/
def State.enqueue (s : State) (e : RoomEntry) : State :=
  { s with rq := s.rq.append ((s.station e.station).sheet.compose e) }.onStation e.station
    fun st => st.setInput .released

/-- R130: put a station on the room-wait list; the station enters ROOMWAIT. -/
def State.awaitRoom (s : State) (e : RoomEntry) : State :=
  { s with rq := { s.rq with rooms := s.rq.rooms ++ [e] } }.onStation e.station fun st => st.setInput .roomWait

/-- R130: the fourth step of a release. -/
def State.placeRelease (s : State) (n : StationIx) (code : Byte) (pri : Priority) (full : Bool) : State :=
  let size := recordSize ((s.station n).sheet.releaseEntries full)
  let e : RoomEntry := { station := n, code := code, priority := pri, full := full, size := size }
  if s.rq.rooms = [] ∧ s.rq.fits size then s.enqueue e else s.awaitRoom e

/-- R125: a release action processed in ENTRY. -/
def State.release (s : State) (n : StationIx) (code : Byte) (pri : Priority) (full : Bool) : State :=
  match (s.station n).releaseChecks s.classes full with
  | .error st => s.setStation n st
  | .ok st => (s.setStation n st).placeRelease n code pri full

/-- R135: serve a room-wait list: the head is queued while it fits. -/
def State.serveList : List RoomEntry → State → State
  | [], s => { s with rq := { s.rq with rooms := [] } }
  | e :: es, s =>
    if s.rq.fits e.size then State.serveList es (s.enqueue e) else { s with rq := { s.rq with rooms := e :: es } }

/-- R135: serve the room-wait list. -/
def State.serve (s : State) : State := State.serveList s.rq.rooms s

/-- R138, R140: the record of a station is removed from the queue and its size taken from the staging count. -/
def ReleaseQueue.remove (q : ReleaseQueue) (n : StationIx) : ReleaseQueue :=
  { q with queue := q.queue.filter (fun r => r.station != n)
           staging := q.staging - ((q.queue.filter fun r => r.station == n).map Record.size).sum }

/-- R140: a release is discarded: the station's record or room-wait entry is removed and the list is served. -/
def State.discardRelease (s : State) (n : StationIx) : State :=
  let q := s.rq.remove n
  { s with rq := { q with rooms := q.rooms.filter fun e => e.station != n } }.serve

/-- R138: a RELEASE answer that carried a station's record is complete. -/
def State.completeRelease (s : State) (n : StationIx) : State :=
  ({ s with rq := s.rq.remove n }.onStation n fun st => st.setInput .waiting).serve

/-! ### Choosing a record and reading a form (R137, R141, R142) -/

/-- R137: the record a POLL to station 0 is handed. -/
def ReleaseQueue.oldest (q : ReleaseQueue) : Option Record :=
  (q.queue.find? fun r => r.priority == .urgent).or q.queue.head?

/-- R137: the record a POLL to a station 1..12 is handed. -/
def ReleaseQueue.recordOf (q : ReleaseQueue) (n : StationIx) : Option Record :=
  q.queue.find? fun r => r.station == n

/-- R141: the fields a scope code selects; none when the code names no scope. -/
def scopeOf (b : Byte) : Option (Field → Bool) :=
  match b.toNat with
  | 0 => some fun f => f.touched
  | 1 => some Field.isInput
  | 2 => some fun _ => true
  | _ => none

/-- R142: the entries a FORMDATA answer carries, from a running size on, and the start of the first field not
carried. -/
def Sheet.formEntries (sh : Sheet) : Nat → List Field → List Entry × Nat
  | _, [] => ([], 0xFFFF)
  | size, f :: fs =>
    if 2048 < size + (sh.entryFor f).size then ([], f.start)
    else
      let rest := sh.formEntries (size + (sh.entryFor f).size) fs
      (sh.entryFor f :: rest.1, rest.2)

/-- R142: the payload of a FORMDATA answer. -/
def Station.formData (st : Station) (start : Nat) (selected : Field → Bool) : List Byte :=
  let taken := st.sheet.formEntries 7 (st.sheet.fields.filter fun f => selected f && decide (start ≤ f.start))
  bytes2 taken.2 ++ bytes2 st.sheet.cursor ++ [byte1 st.sheet.top, byte1 taken.1.length, st.input.code] ++
    taken.1.flatMap Entry.bytes

end Sys2Proof.Machine
end

