-- ==== Sys2Proof/Machine/Keys.lean ====
section
/-! DEFINITION. Key events: the chatter guard, modifiers, key maps, repeat, routing, the type-ahead queue and its replay
(chapter 4). -/

namespace Sys2Proof.Machine

/-! ### Key maps (R76, R77) -/

/-- R76: the entry (kind, argument) of map 0, which is fixed, for a plane and a key code. -/
def mapZero (plane code : Nat) : Byte × Byte :=
  if 0x20 ≤ code ∧ code ≤ 0x7E then
    if 0x61 ≤ code ∧ code ≤ 0x7A ∧ plane % 2 = 1 then (0x01#8, byte1 (code - 0x20)) else (0x01#8, byte1 code)
  else if 0x19 ≤ code ∧ code ≤ 0x1F then (0x04#8, byte1 (code - 0x08))
  else match code with
    | 0x01 => (0x02#8, 0x04#8)
    | 0x09 => (0x02#8, 0x04#8)
    | 0x02 => (0x02#8, 0x05#8)
    | 0x03 => (0x02#8, 0x02#8)
    | 0x04 => (0x02#8, 0x03#8)
    | 0x05 => (0x02#8, 0x01#8)
    | 0x06 => (0x02#8, 0x00#8)
    | 0x07 => (0x02#8, 0x06#8)
    | 0x08 => (0x03#8, 0x01#8)
    | 0x0A => (0x02#8, 0x07#8)
    | 0x0B => (0x03#8, 0x02#8)
    | 0x0C => (0x03#8, 0x03#8)
    | 0x0D => (0x04#8, 0x01#8)
    | 0x0E => (0x03#8, 0x04#8)
    | 0x0F => (0x03#8, 0x00#8)
    | 0x10 => (0x08#8, 0x00#8)
    | 0x11 => (0x09#8, 0x00#8)
    | 0x12 => (0x0A#8, 0x00#8)
    | 0x13 => (0x07#8, 0x00#8)
    | 0x14 => (0x02#8, 0x09#8)
    | 0x15 => (0x02#8, 0x0A#8)
    | 0x16 => (0x02#8, 0x08#8)
    | 0x18 => (0x06#8, 0x7F#8)
    | _ => (0x00#8, 0x00#8)

/-- The address in the key map memory of the entry of a map, plane and key code: two bytes an entry. -/
def mapAddress (m plane code : Nat) : Nat := ((m * 4 + plane) * 128 + code) * 2

/-- What a byte of the key map memory that is not listed holds: the byte of map 0's entry (R76). -/
def mapDefault (a : Nat) : Byte :=
  if a % 2 = 0 then (mapZero (a / 2 / 128 % 4) (a / 2 % 128)).1 else (mapZero (a / 2 / 128 % 4) (a / 2 % 128)).2

/-- R76: the entry of a map for a plane and a key code. -/
def State.mapEntry (s : State) (m : Fin 4) (plane code : Nat) : Byte × Byte :=
  if m = 0 then mapZero plane code
  else (Memory.read mapDefault s.keyMaps (mapAddress m.1 plane code),
        Memory.read mapDefault s.keyMaps (mapAddress m.1 plane code + 1))

/-- R75: the plane of the modifiers. -/
def Station.plane (st : Station) : Nat :=
  (if st.shiftHolders = [] then 0 else 1) + (if st.altHolders = [] then 0 else 2)

/-- R77: the action a key-down is translated into. -/
def State.translate (s : State) (n : StationIx) (code : Byte) : Action :=
  actionOf (s.mapEntry (s.station n).profile.keyMap (s.station n).plane code.toNat).1
    (s.mapEntry (s.station n).profile.keyMap (s.station n).plane code.toNat).2

/-! ### The chatter guard (R74) -/

/-- R74: whether the guard ignores a key-down of a code arriving at a time. -/
def Station.ignoresDown (st : Station) (code : Byte) (time : Nat) : Bool :=
  match st.chatter.keyUp with
  | some (c, t) => decide (st.profile.chatter ≠ 0) && c == code && decide (time < t + st.profile.chatter)
  | none => false

/-- R74: an ignored key-down makes its code the suppressed code. -/
def Station.suppress (st : Station) (code : Byte) : Station :=
  { st with chatter := { st.chatter with suppressed := some code } }

/-- R74: a key-down of the suppressed code that is not ignored ends the suppression. The rule says so where g
milliseconds have passed; that it also ends where the remembered code is by then another key's, or the guard is 0, is the
model's choice (log 32). -/
def Station.unsuppress (st : Station) (code : Byte) : Station :=
  if st.chatter.suppressed = some code then { st with chatter := { st.chatter with suppressed := none } } else st

/-! ### Processing an action in ENTRY (R84) -/

/-- R84: an action processed in ENTRY. A RESET there has no effect (R82). -/
def State.process (s : State) (n : StationIx) : Action → State
  | .char c => s.onStation n fun st => st.charAction s.classes c
  | .move m => s.onStation n fun st => st.moveAction s.classes m
  | .edit e => s.onStation n fun st => st.editAction s.classes e
  | .release code => s.release n code .normal true
  | .releaseShort code => s.release n code .normal false
  | .releaseUrgent code => s.release n code .urgent false
  | .signal => s.raise n causeSignal
  | .reset => s
  | .none => s
  | .shift => s
  | .alt => s

/-! ### The type-ahead queue (R86 to R89) -/

/-- R86: a type-ahead queue holds at most 32 actions. -/
def typeAheadSize : Nat := 32

/-- R87: append an action, or discard it with ALARM, KEYS DISCARDED and TYPEAHEAD FULL. -/
def State.typeAheadAppend (s : State) (n : StationIx) (a : Action) : State :=
  if (s.station n).typeAhead.length < typeAheadSize then
    s.onStation n fun st => { st with typeAhead := st.typeAhead ++ [a] }
  else
    (s.onStation n fun st => { st with keysDiscarded := st.keysDiscarded + 1 }.requestAlarm).raise n causeTypeAheadFull

/-- R89: take a queued action off and process it. -/
def State.replayOne (s : State) (n : StationIx) (a : Action) (rest : List Action) : State :=
  (s.onStation n fun st => { st with typeAhead := rest }).process n a

/-- R89: replay queued actions, oldest first, until none is left or the station is no longer in ENTRY. -/
def State.replayList (n : StationIx) : List Action → State → State
  | [], s => s
  | a :: rest, s =>
    if (s.station n).input = .entry then State.replayList n rest (s.replayOne n a rest) else s

/-- R89: replay a station's type-ahead queue. -/
def State.replay (s : State) (n : StationIx) : State := State.replayList n (s.station n).typeAhead s

/-! ### Routing (R80 to R83) -/

/-- R82: a RESET in HELD: ENTRY, the insert flag off. -/
def Station.resetHeld (st : Station) : Station := (st.setInsert false).setInput .entry

/-- R80: an action that reaches step 6 of R73 is routed by the input state. -/
def State.route (s : State) (n : StationIx) (a : Action) : State :=
  match a with
  | .signal => s.process n .signal
  | .reset =>
    match (s.station n).input with
    | .held => s.onStation n Station.resetHeld
    | .entry => if (s.station n).scan.isSome then s.typeAheadAppend n .reset else s.process n .reset
    | _ => s.onStation n fun st => { st with typeAhead := [] }
  | a =>
    match (s.station n).input with
    | .held => s.onStation n Station.requestAlarm
    | .entry => if (s.station n).scan.isSome then s.typeAheadAppend n a else s.process n a
    | _ => s.typeAheadAppend n a

/-- R73 step 5: whether step 6 will process an action or append it to the queue. -/
def Station.takes (st : Station) : Bool :=
  st.input != .held &&
    ((st.input == .entry && st.scan.isNone) || decide (st.typeAhead.length < typeAheadSize))

/-- R73 step 5, R34: any repeat stops; a repeatable action that will be taken loads the repeat timer. -/
def Station.loadRepeat (st : Station) (code : Byte) (a : Action) : Station :=
  { st with rep := if a.repeatable && st.takes then some ⟨code, a, st.profile.repeatDelay⟩ else none }

/-- R75: add a code to a modifier set. -/
def addHolder (code : Byte) (holders : List Byte) : List Byte :=
  if code ∈ holders then holders else holders ++ [code]

/-- R73 steps 3 to 6: a key-down that the chatter guard let through, as its action. -/
def State.takeAction (s : State) (n : StationIx) (code : Byte) (a : Action) : State :=
  match a with
  | .shift => s.onStation n fun st => { st with shiftHolders := addHolder code st.shiftHolders }
  | .alt => s.onStation n fun st => { st with altHolders := addHolder code st.altHolders }
  | .none => s.onStation n fun st => { st with rep := none }
  | a => (s.onStation n fun st => st.loadRepeat code a).route n a

/-- R73: a key-down at the station engine. -/
def State.keyDown (s : State) (n : StationIx) (code : Byte) (time : Nat) : State :=
  if (s.station n).ignoresDown code time then s.onStation n fun st => st.suppress code
  else (s.onStation n fun st => st.unsuppress code).takeAction n code (s.translate n code)

/-- R73 to R75: a key-up at the station engine. -/
def Station.keyUp (st : Station) (code : Byte) (time : Nat) : Station :=
  if st.chatter.suppressed = some code then { st with chatter := { st.chatter with suppressed := none } }
  else
    { st with chatter := { st.chatter with keyUp := some (code, time) }
              shiftHolders := st.shiftHolders.filter (fun c => c != code)
              altHolders := st.altHolders.filter (fun c => c != code)
              rep := st.rep.filter fun r => r.key != code }

/-! ### The repeat timer (R34) -/

/-- R34: the repeat timer runs out: the action is processed once more in ENTRY with no scan open, otherwise the repeat
ends. The timer is reloaded before the action is processed, so that a change of input state stops it. -/
def State.repeatExpiry (s : State) (n : StationIx) : State :=
  match (s.station n).rep with
  | none => s
  | some r =>
    if (s.station n).input = .entry ∧ (s.station n).scan = none then
      (s.onStation n fun st => { st with rep := some { r with left := st.profile.repeatPeriod } }).process n r.action
    else s.onStation n fun st => { st with rep := none }

end Sys2Proof.Machine
end

