-- ==== Sys2Proof/Machine/Scans.lean ====
section
/-! DEFINITION. The scan assembler and the placement of closed scans (chapter 6). -/

namespace Sys2Proof.Machine

/-- R114: the scan buffer holds up to 64 characters. -/
def scanBufferSize : Nat := 64

/-! ### Building (R115, R116) -/

/-- R115 case 3: a character opens a scan; the repeat timer stops. -/
def Station.openScan (st : Station) (c : Byte) : Station :=
  { st with scan := some { buffer := [c], overflow := false, gapLeft := st.profile.gap }, rep := none }.markIndicator

/-- R115 case 2, R121: a character discarded because no scan can open. -/
def Station.rejectChar (st : Station) : Station := { st with scanRejects := st.scanRejects + 1 }.requestAlarm

/-- R116: a character that is not the suffix, while a scan is open. -/
def Station.growScan (st : Station) (sc : Scan) (c : Byte) : Station :=
  { st with scan := some (if sc.buffer.length < scanBufferSize then
      { sc with buffer := sc.buffer ++ [c], gapLeft := st.profile.gap }
    else { sc with overflow := true, gapLeft := st.profile.gap }) }

/-- R115, R116: the character is the profile's scan suffix; a suffix of 0x00 means none. -/
def Station.isSuffix (st : Station) (c : Byte) : Bool := st.profile.suffix != 0x00#8 && c == st.profile.suffix

/-! ### Closing and placing (R117 to R123) -/

/-- R117, R118: the scan-open flag, buffer and overflow flag are cleared and the gap timer is stopped. -/
def Station.dropScan (st : Station) : Station :=
  if st.scan.isSome then { st with scan := none }.markIndicator else st

/-- R119: the field a scan is accepted into, or none when it is rejected. -/
def Sheet.scanField (sh : Sheet) (tu : Vector ClassRec 15) (sc : Scan) : Option Field :=
  (sh.inputAt sh.cursor).filter fun f =>
    !sc.overflow && decide (sc.buffer.length ≤ f.length) &&
      sc.buffer.all fun c =>
        (classRec tu f.props.cls).permitsChar ((classRec tu f.props.cls).foldChar c)

/-- R120: the content an accepted scan gives a field. -/
def scanContent (k : ClassRec) (f : Field) (sc : Scan) : List Byte :=
  sc.buffer.map k.foldChar ++ List.replicate (f.length - sc.buffer.length) blankChar

/-- R120: the scan's characters replace the field's content; the field is touched and edited. -/
def Station.placeScan (st : Station) (tu : Vector ClassRec 15) (f : Field) (sc : Scan) : Station :=
  (st.putCells f.start (scanContent (classRec tu f.props.cls) f sc)).markEdited f

/-- R121: a rejected scan. -/
def Station.rejectScan (st : Station) : Station :=
  { st with scanRejects := st.scanRejects + 1 }.enterHeld .scanReject

/-- R122: scan advance, after a passed exit check. -/
def Station.scanAdvance (st : Station) (tu : Vector ClassRec 15) : Station :=
  if st.profile.advance then st.operatorMove tu st.sheet.nextTarget none else st

/-- R122: scan release, after the advance or in its place. -/
def State.scanRelease (s : State) (n : StationIx) : State :=
  if (s.station n).profile.releaseCode = 0x00#8 then s
  else s.release n (s.station n).profile.releaseCode .normal true

/-- R119 to R122: a closed scan at the station engine. -/
def State.takeScan (s : State) (n : StationIx) (sc : Scan) : State :=
  match (s.station n).sheet.scanField s.classes sc with
  | none => s.onStation n Station.rejectScan
  | some f =>
    let placed := (s.station n).placeScan s.classes f sc
    match placed.sheet.valueChecks s.classes f with
    | some e => s.setStation n (placed.failCheck f e)
    | none => (s.setStation n ((placed.passExit f).scanAdvance s.classes)).scanRelease n

/-- R117, R123: an open scan closes; the type-ahead queue is replayed when the station is still in ENTRY. -/
def State.closeScan (s : State) (n : StationIx) : State :=
  match (s.station n).scan with
  | none => s
  | some sc => ((s.onStation n Station.dropScan).takeScan n sc).replay n

/-- R115, R116: a scanner character at the scan assembler. -/
def State.scanChar (s : State) (n : StationIx) (c : Byte) : State :=
  match (s.station n).scan with
  | none =>
    if (s.station n).isSuffix c then s
    else if (s.station n).input = .entry then s.onStation n fun st => st.openScan c
    else s.onStation n Station.rejectChar
  | some sc =>
    if (s.station n).isSuffix c then s.closeScan n else s.onStation n fun st => st.growScan sc c

end Sys2Proof.Machine
end

