-- ==== Sys2Proof/Machine/Link.lean ====
section
/-! DEFINITION. Station links: attach, detach, enable, disable, terminal messages and the bytes that make them
(sections 2.1, 2.5, R193). -/

namespace Sys2Proof.Machine

/-! ### Enable and disable (R28, R29) -/

/-- R28, R29: a station as enable and disable leave it: everything but the two counters at its reset value. -/
def Station.cleared (st : Station) (profile : Profile) (link : LinkState) (probe : Option Nat) : Station :=
  { Station.atReset with
      link := link, profile := profile, dr := { Refresh.atReset with probe := probe }
      keysDiscarded := st.keysDiscarded, scanRejects := st.scanRejects }

/-- R28: a DISABLED station is enabled. -/
def Station.enable (st : Station) (profile : Profile) : Station := st.cleared profile .detached (some 500)

/-- R29: a station is disabled (the release is discarded by `State.disable`). -/
def Station.disable (st : Station) (profile : Profile) : Station := st.cleared profile .disabled none

/-- R140: a station in RELEASED or ROOMWAIT has a release to discard. -/
def Station.releasePending (st : Station) : Bool := st.input == .released || st.input == .roomWait

/-- R29: disabling discards the station's record or room-wait entry, if it has one, and serves the list. -/
def State.disable (s : State) (n : StationIx) (profile : Profile) : State :=
  (if (s.station n).releasePending then s.discardRelease n else s).onStation n fun st => st.disable profile

/-! ### Attach and detach (R25 to R27) -/

/-- R25: the link attaches and the whole screen is marked stale. -/
def Station.attach (st : Station) : Station :=
  { st with link := .attached, dr := { st.dr with silence := some 2000, paused := false } }.markAll

/-- R27, R74: what a detach does at the station. -/
def Station.detach (st : Station) : Station :=
  { st with
      link := .detached, typeAhead := [], shiftHolders := [], altHolders := [], chatter := ⟨none, none⟩, rep := none
      scan := none
      dr := { Refresh.atReset with probe := if st.dr.inFlight.isSome then some 500 else st.dr.probe } }

/-- R26: the silence timer of an ATTACHED link runs out. -/
def State.silenceExpiry (s : State) (n : StationIx) : State :=
  if (s.station n).link = .attached ∧ (s.station n).dr.silence.isSome then
    (s.onStation n Station.detach).raise n causeDetached
  else s

/-! ### Terminal messages (R24) -/

/-- R193: the message begun is no more. -/
def Station.dropRx (st : Station) : Station := { st with dr := { st.dr with rx := none } }

/-- R24, R26: a message received is a sign of life: it attaches a DETACHED link and reloads the silence timer. -/
def State.signOfLife (s : State) (n : StationIx) : State :=
  match (s.station n).link with
  | .detached => (s.onStation n fun st => st.dropRx.attach).raise n causeAttached
  | .attached => s.onStation n fun st => { st.dropRx with dr := { st.dropRx.dr with silence := some 2000 } }
  | .disabled => s

/-- R24: while the link is DISABLED nothing is received. -/
def State.listens (s : State) (n : StationIx) : Bool := (s.station n).link != .disabled

/-- R73: a KEY message; one whose code is not 1..127 does not match the layout and is discarded (R193). -/
def State.keyMessage (s : State) (n : StationIx) (code : Byte) (down : Bool) (time : Nat) : State :=
  if s.listens n then
    if 1 ≤ code.toNat ∧ code.toNat ≤ 127 then
      if down then (s.signOfLife n).keyDown n code time
      else (s.signOfLife n).onStation n fun st => st.keyUp code time
    else s.onStation n Station.dropRx
  else s

/-- R115: a SCANCH message. -/
def State.scanMessage (s : State) (n : StationIx) (c : Byte) : State :=
  if s.listens n then (s.signOfLife n).scanChar n c else s

/-- R40: the pause flag. -/
def Station.setPaused (st : Station) (f : Bool) : Station := { st with dr := { st.dr with paused := f } }

/-- R40: a PAUSE or RESUME message. -/
def State.pauseMessage (s : State) (n : StationIx) (f : Bool) : State :=
  if s.listens n then (s.signOfLife n).onStation n fun st => st.setPaused f else s

/-- R24: a PRESENT message is a sign of life and nothing more. -/
def State.presentMessage (s : State) (n : StationIx) : State := s.signOfLife n

/-! ### Bytes from the terminal (R193) -/

/-- R193: a message is begun or goes on, with 10 ms to the next byte. -/
def Station.expect (st : Station) (part : LinkPart) : Station :=
  { st with dr := { st.dr with rx := some (part, 10) } }

/-- R193: a byte with no message begun. -/
def State.leadByte (s : State) (n : StationIx) (b : Byte) : State :=
  match b.toNat with
  | 0x81 => s.onStation n fun st => st.expect .keyLead
  | 0x82 => s.onStation n fun st => st.expect .scanLead
  | 0x83 => s.pauseMessage n true
  | 0x84 => s.pauseMessage n false
  | 0x85 => s.presentMessage n
  | _ => s

/-- R193: a byte that goes on with the message begun. -/
def State.nextByte (s : State) (n : StationIx) (part : LinkPart) (b : Byte) (time : Nat) : State :=
  match part with
  | .keyLead =>
    if 1 ≤ b.toNat ∧ b.toNat ≤ 127 then s.onStation n fun st => st.expect (.keyCode b)
    else s.onStation n Station.dropRx
  | .keyCode code =>
    match b.toNat with
    | 0 => s.keyMessage n code false time
    | 1 => s.keyMessage n code true time
    | _ => s.onStation n Station.dropRx
  | .scanLead => s.scanMessage n b

/-- R193: a byte from the terminal; a parity error discards the message so far. -/
def State.linkByte (s : State) (n : StationIx) (b : Byte) (parityOk : Bool) (time : Nat) : State :=
  if s.listens n then
    if parityOk then
      match (s.station n).dr.rx with
      | none => s.leadByte n b
      | some (part, _) => s.nextByte n part b time
    else s.onStation n Station.dropRx
  else s

/-! ### The meanings of the link commands -/

/-- KEY_DOWN (R73). -/
def execKeyDown (n : StationIx) (code : Byte) (time : Nat) (s : State) : Host.Outcome State Fault Refusal :=
  .next (s.keyMessage n code true time)

/-- KEY_UP (R73). -/
def execKeyUp (n : StationIx) (code : Byte) (time : Nat) (s : State) : Host.Outcome State Fault Refusal :=
  .next (s.keyMessage n code false time)

/-- SCANCH (R115, R116). -/
def execScanch (n : StationIx) (c : Byte) (s : State) : Host.Outcome State Fault Refusal :=
  .next (s.scanMessage n c)

/-- PAUSE (R40). -/
def execPause (n : StationIx) (s : State) : Host.Outcome State Fault Refusal := .next (s.pauseMessage n true)

/-- RESUME (R40). DR's choice of a message that follows is START_MESSAGE's step (log 18). -/
def execResume (n : StationIx) (s : State) : Host.Outcome State Fault Refusal := .next (s.pauseMessage n false)

/-- PRESENT (R24). -/
def execPresent (n : StationIx) (s : State) : Host.Outcome State Fault Refusal := .next (s.presentMessage n)

/-- LINK_BYTE (R193). A byte that completes a message is handled as that message (log 7). -/
def execLinkByte (n : StationIx) (b : Byte) (parityOk : Bool) (time : Nat) (s : State) :
    Host.Outcome State Fault Refusal :=
  .next (s.linkByte n b parityOk time)

/-- LINK_BYTE_TIMEOUT (R193). -/
def execLinkByteTimeout (n : StationIx) (s : State) : Host.Outcome State Fault Refusal :=
  .next (s.onStation n Station.dropRx)

/-- SILENCE_TIMER_EXPIRY (R26, R27). -/
def execSilenceTimerExpiry (n : StationIx) (s : State) : Host.Outcome State Fault Refusal :=
  .next (s.silenceExpiry n)

/-- REPEAT_TIMER_EXPIRY (R34). -/
def execRepeatTimerExpiry (n : StationIx) (s : State) : Host.Outcome State Fault Refusal :=
  .next (s.repeatExpiry n)

/-- GAP_TIMER_EXPIRY (R35, R117). -/
def execGapTimerExpiry (n : StationIx) (s : State) : Host.Outcome State Fault Refusal := .next (s.closeScan n)

/-- PROBE_TIMER_EXPIRY (R42). -/
def execProbeTimerExpiry (n : StationIx) (s : State) : Host.Outcome State Fault Refusal :=
  .next (s.onStation n Station.probeExpiry)

/-- START_MESSAGE (R38). -/
def execStartMessage (n : StationIx) (s : State) : Host.Outcome State Fault Refusal :=
  .next (s.onStation n Station.startMessage)

/-- MESSAGE_COMPLETE (R39). -/
def execMessageComplete (n : StationIx) (s : State) : Host.Outcome State Fault Refusal :=
  .next (s.onStation n Station.completeMessage)

end Sys2Proof.Machine
end

