-- ==== Sys2Proof/Machine/Flags.lean ====
section
/-! DEFINITION. The flag computations: the status octet of every answer (R176, R192) and the attention masks (R186). -/

namespace Sys2Proof.Machine

/-- The positions of a mask octet that name a cause of stations 1..12, and of station 0 (R188, section 11.1). -/
def stationCauseBits : Byte := 0x0F#8
def ctlCauseBits : Byte := 0x07#8

/-- The positions that name a cause of a station 0..12 (R187). -/
def causeBits (i : Fin 13) : Byte := if i = 0 then ctlCauseBits else stationCauseBits

/-- A bit of an octet, set or clear. -/
def bitAt (i : Nat) (f : Bool) : Byte := if f then BitVec.ofNat 8 (2 ^ i) else 0x00#8

/-- R186: some station 0..12 has a cause set whose position in the mask octet for its kind is clear. -/
def State.attention (s : State) : Bool :=
  (s.causes[0] &&& ~~~s.ctlMask != 0x00#8) ||
    (List.finRange 12).any fun n => s.causes[causeIx n] &&& ~~~s.stationMask != 0x00#8

/-- R176, R192: bit 0 STARTING, bit 1 ATTENTION, bit 2 RELEASE QUEUED, bit 3 STORE BUSY, bit 4 LOAD OPEN. -/
def State.statusOctet (s : State) : Byte :=
  bitAt 0 (s.store.phase == .starting) ||| bitAt 1 s.attention ||| bitAt 2 (!s.rq.queue.isEmpty) |||
    bitAt 3 s.store.op.isSome ||| bitAt 4 s.store.session.isSome

end Sys2Proof.Machine
end

