-- ==== Sys2Proof/Machine/Answers.lean ====
section
/-! DEFINITION. Answers: the check of frames, refusals, and the composition of up frames (R170, R171, R177, R192). -/

namespace Sys2Proof.Machine

/-! ### The check (R170) -/

/-- One bit of the CRC register: polynomial x^16 + x^12 + x^5 + 1. -/
def crcShift (c : BitVec 16) : BitVec 16 := if c.msb then (c <<< 1) ^^^ 0x1021#16 else c <<< 1

/-- One byte, most significant bit first. -/
def crcByte (c : BitVec 16) (b : Byte) : BitVec 16 :=
  crcShift <| crcShift <| crcShift <| crcShift <| crcShift <| crcShift <| crcShift <| crcShift <|
    c ^^^ (b.setWidth 16 <<< 8)

/-- The CRC of a run of bytes, preset to 0xFFFF, with no final inversion. -/
def crc (bytes : List Byte) : BitVec 16 := bytes.foldl crcByte 0xFFFF#16

/-! ### What a handling answers -/

/-- The answer a handling composes. `station` names the record's station in a RELEASE; every other answer carries the
request's station byte (R171). `restart` marks the ACCEPT to a RESTART (R173). -/
structure Reply where
  kind    : UpKind
  payload : List Byte
  station : Option Byte
  restart : Bool
deriving DecidableEq, Repr

/-- R177: the reasons of a REFUSE. -/
inductive Reason where
  | unknownKind | badStation | badLength | starting | stationDisabled | releasePending | directiveError | storeBusy
  | sequence | protectedGroup | notErased | formExists | imageInvalid | programFault | badParameter
deriving DecidableEq, Repr

/-- Section 11.1: the reason codes. The table gives NOT ERASED no code: its code is a free value (log 19). -/
def Reason.code : Reason → Byte
  | .unknownKind => 0x01#8
  | .badStation => 0x02#8
  | .badLength => 0x03#8
  | .starting => 0x04#8
  | .stationDisabled => 0x05#8
  | .releasePending => 0x06#8
  | .directiveError => 0x07#8
  | .storeBusy => 0x08#8
  | .sequence => 0x09#8
  | .protectedGroup => 0x0A#8
  | .notErased => Config.notErasedCode
  | .formExists => 0x0B#8
  | .imageInvalid => 0x0C#8
  | .programFault => 0x0D#8
  | .badParameter => 0x0E#8

/-- An answer that carries the request's station byte. -/
def reply (kind : UpKind) (payload : List Byte) : Reply := { kind, payload, station := none, restart := false }

/-- R177: a REFUSE with reason, subcode and detail. -/
def refuse (reason : Reason) (subcode detail : Nat) : Reply :=
  reply .refuse ([reason.code, byte1 subcode] ++ bytes2 detail)

/-- An ACCEPT with a payload. -/
def accept (payload : List Byte) : Reply := reply .accept payload

/-- R171, R175, R177: the answer to a request is composed at the end of its handling, with the status octet of that
moment, and is pending; a REFUSE raises the counter REFUSALS. -/
def State.respond (s : State) (station : Byte) (r : Reply) : State :=
  { s with
      refusals := if r.kind = .refuse then s.refusals + 1 else s.refusals
      answer := some
        { unit := s.unitAddr, station := r.station.getD station, kind := r.kind, status := s.statusOctet
          payload := r.payload, restart := r.restart, sending := false, readBack := 0 } }

/-- R192: the bytes of an answer from the unit byte through the last payload byte. -/
def Answer.body (a : Answer) : List Byte :=
  [a.unit, a.station, a.kind.code, a.status] ++ bytes2 a.payload.length ++ a.payload

/-- R192: the bytes of an up frame. -/
def Answer.frame (a : Answer) : List Byte := 0x3C#8 :: a.body ++ bytes2 (crc a.body).toNat

/-- HDE is driven for the whole of the sending of an answer, and no longer (R171, R173). -/
def State.hostDriverEnabled (s : State) : Bool := s.answer.any fun a => a.sending

/-- R172: the byte being sent: the first of the answer's frame that has not been read back (log 33). -/
def State.byteBeingSent (s : State) : Option Byte :=
  s.answer.bind fun a => if a.sending then a.frame[a.readBack]? else none

end Sys2Proof.Machine
end

