-- ==== Sys2Proof/Machine/StoreOps.lean ====
section
/-! DEFINITION. The template store's memory: addresses, header rows, the start-up scan, template images and their
validation, and what failed and interrupted operations leave (sections 8.1 to 8.5). -/

namespace Sys2Proof.Machine

/-! ### Addresses (R143) -/

/-- The address of the first byte of a row of a slot. -/
def rowAddress (slot row : Nat) : Nat := slot * 2048 + row * 64

/-- The slot and row that hold an image row of a template whose first slot is `first`. -/
def imageRowPlace (first k : Nat) : Nat × Nat := (first + k / 31, 1 + k % 31)

/-- The address of an image byte. -/
def imageAddress (first b : Nat) : Nat :=
  rowAddress (imageRowPlace first (b / 64)).1 (imageRowPlace first (b / 64)).2 + b % 64

/-- An image of a given length read back from its slots. -/
def readImage (m : Memory) (first length : Nat) : List Byte :=
  (List.range length).map fun b => Memory.read storeDefault m (imageAddress first b)

/-- An address lies in a slot. -/
def inSlot (slot a : Nat) : Bool := decide (slot * 2048 ≤ a ∧ a < (slot + 1) * 2048)

/-- R143: a slot erase returns all 32 rows to 0xFF: in the canonical form, nothing of the slot is listed. -/
def eraseSlot (m : Memory) (slot : Nat) : Memory := m.filter fun c => !inSlot slot c.1

/-- R149 step 1: the 32 rows of a slot all read 0xFF. -/
def slotErased (m : Memory) (slot : Nat) : Bool := m.all fun c => !inSlot slot c.1

/-! ### Header rows (R144, section 11.4) -/

/-- The items of a header row. -/
structure Header where
  form   : Byte
  index  : Nat
  count  : Nat
  length : Nat
deriving DecidableEq, Repr

/-- R144: the completion mark. -/
def completionMark : Byte := 0xA5#8

/-- The 64 bytes of a header row. -/
def Header.row (h : Header) : List Byte :=
  [h.form, byte1 h.index, byte1 h.count] ++ bytes2 h.length ++ List.replicate 58 0xFF#8 ++ [completionMark]

/-- R144: the limits on the items of a valid header row. -/
def Header.valid (h : Header) : Bool :=
  decide (1 ≤ h.form.toNat ∧ h.form.toNat ≤ 250 ∧ 1 ≤ h.count ∧ h.count ≤ 8 ∧ h.index < h.count ∧
    16 ≤ h.length ∧ h.length ≤ 1984 * h.count)

/-- The header row of a slot, when it is valid. -/
def headerOf (m : Memory) (slot : Nat) : Option Header :=
  match Memory.readList storeDefault m (rowAddress slot 0) 64 with
  | form :: index :: count :: hi :: lo :: rest =>
    let h : Header := { form := form, index := index.toNat, count := count.toNat, length := number [hi, lo] }
    if h.valid ∧ rest = List.replicate 58 0xFF#8 ++ [completionMark] then some h else none
  | _ => none

/-! ### The start-up scan (R149) -/

/-- R149 step 2: the template that starts at a slot, its header rows all valid and in agreement. -/
def templateAt (m : Memory) (slot : Nat) : Option DirEntry :=
  match headerOf m slot with
  | none => none
  | some h =>
    if h.index = 0 ∧ slot + h.count ≤ 64 ∧
        (List.range h.count).all (fun j => headerOf m (slot + j) == some { h with index := j }) then
      some { form := h.form, first := slot, count := h.count, length := h.length }
    else none

/-- R149 steps 2 and 3: the slots of a list are examined in order; `next` is the first slot not yet taken. -/
def findTemplates (m : Memory) : List Nat → Nat → List DirEntry → List DirEntry
  | [], _, found => found
  | slot :: slots, next, found =>
    if slot < next then findTemplates m slots next found
    else match templateAt m slot with
      | none => findTemplates m slots next found
      | some e =>
        if found.any (fun d => d.form == e.form) then findTemplates m slots next found
        else findTemplates m slots (slot + e.count) (found ++ [e])

/-- R149: the directory the scan builds, in ascending order of first slot. -/
def scanDirectory (m : Memory) : List DirEntry := findTemplates m (List.range 64) 0 []

/-- The slots of a template hold slot k. -/
def DirEntry.covers (e : DirEntry) (k : Nat) : Bool := decide (e.first ≤ k ∧ k < e.first + e.count)

/-- R149: the state the scan gives a slot. -/
def scanSlot (m : Memory) (directory : List DirEntry) (k : Nat) : SlotState :=
  match directory.find? fun e => e.covers k with
  | some e => if e.first = k then .head else .tail
  | none => if slotErased m k then .erased else .dirty

/-- R149, R150: the store when the start-up scan completes. -/
def Store.scanned (st : Store) : Store :=
  { st with
      phase := .running, op := none, directory := scanDirectory st.mem
      slots := Vector.ofFn fun k => scanSlot st.mem (scanDirectory st.mem) k.1 }

/-! ### Template images (R153, R154, section 11.4) -/

/-- Byte i of an image. -/
def imageByte (image : List Byte) (i : Nat) : Nat := (image.getD i 0x00#8).toNat

/-- The two-byte number at offset i of an image. -/
def imageWord (image : List Byte) (i : Nat) : Nat := imageByte image i * 256 + imageByte image (i + 1)

/-- The band of an image header; none when k is 0. -/
def imageBand (image : List Byte) : Option Band :=
  if imageByte image 9 = 0 then none
  else some { firstField := imageByte image 7, perItem := imageByte image 8, items := imageByte image 9,
              firstRow := imageByte image 10, height := imageByte image 11 }

/-- Field record i of an image: number, start, length, properties, class, fill rule and the final byte, 8 bytes. -/
def fieldRecord (image : List Byte) (i : Nat) : List Byte := (image.drop (16 + 8 * i)).take 8

/-- The offset of the first text run. -/
def runsOffset (image : List Byte) : Nat := 16 + 8 * imageByte image 4

/-- The text runs of a run of bytes: (offset, start, characters) of each of k runs, and the offset after the last;
none when a run is cut short. -/
def textRuns : Nat → Nat → List Byte → Option (List (Nat × Nat × List Byte) × Nat)
  | 0, off, _ => some ([], off)
  | k + 1, off, hi :: lo :: n :: rest =>
    if rest.length < n.toNat then none
    else (textRuns k (off + 3 + n.toNat) (rest.drop n.toNat)).map fun r =>
      ((off, number [hi, lo], rest.take n.toNat) :: r.1, r.2)
  | _ + 1, _, _ => none

/-- The text runs of an image. -/
def imageRuns (image : List Byte) : Option (List (Nat × Nat × List Byte) × Nat) :=
  textRuns (imageWord image 5) (runsOffset image) (image.drop (runsOffset image))

/-- R154: the subcodes of IMAGE INVALID. -/
inductive ImageFault where
  | length | nonzero | formNumber | sheetSize | fieldCount | fieldNumber | fieldPlace | fieldClass | initialField
  | band | textPlace | character
deriving DecidableEq, Repr

/-- Section 11.1: the IMAGE INVALID subcodes. -/
def ImageFault.code : ImageFault → Nat
  | .length => 0x01
  | .nonzero => 0x02
  | .formNumber => 0x03
  | .sheetSize => 0x04
  | .fieldCount => 0x05
  | .fieldNumber => 0x06
  | .fieldPlace => 0x07
  | .fieldClass => 0x08
  | .initialField => 0x09
  | .band => 0x0A
  | .textPlace => 0x0B
  | .character => 0x0C

/-- R154 checks 1 to 6: the closing length and the header items. -/
def headerFault (image : List Byte) (form : Byte) (closing rowsLoaded : Nat) : Option (ImageFault × Nat) :=
  if closing < 16 ∨ 64 * rowsLoaded < closing then some (.length, 0)
  else if imageWord image 12 ≠ closing then some (.length, 12)
  else if imageWord image 14 ≠ 0 then some (.nonzero, 14)
  else if imageByte image 0 ≠ form.toNat then some (.formNumber, 0)
  else if imageByte image 1 < 24 ∨ 72 < imageByte image 1 then some (.sheetSize, 1)
  else if 8 < imageByte image 2 then some (.sheetSize, 2)
  else if 160 < imageByte image 4 then some (.fieldCount, 4)
  else none

/-- R154 checks 8 to 10 on one field record, after records with the given numbers and the given end. -/
def recordFault (image : List Byte) (size i : Nat) (seen : List Nat) (prevEnd : Nat) : Option ImageFault :=
  let r := fieldRecord image i
  let k := imageByte r 0
  let start := imageWord r 1
  let len := imageByte r 3
  if k < 1 ∨ 160 < k ∨ k ∈ seen then some .fieldNumber
  else if len = 0 ∨ size < start + len ∨ start < prevEnd then some .fieldPlace
  else if 15 < imageByte r 5 then some .fieldClass
  else if imageByte r 7 ≠ 0 then some .nonzero
  else none

/-- R154 checks 8 to 10, record by record; the detail is the record's offset. -/
def recordsFault (image : List Byte) (size : Nat) : Nat → Nat → List Nat → Nat → Option (ImageFault × Nat)
  | 0, _, _, _ => none
  | k + 1, i, seen, prevEnd =>
    match recordFault image size i seen prevEnd with
    | some e => some (e, 16 + 8 * i)
    | none =>
      let r := fieldRecord image i
      recordsFault image size k (i + 1) (imageByte r 0 :: seen) (imageWord r 1 + imageByte r 3)

/-- The numbers of the field records of an image. -/
def recordNumbers (image : List Byte) : List Nat :=
  (List.range (imageByte image 4)).map fun i => imageByte (fieldRecord image i) 0

/-- R154 check 11: the initial field and the band. -/
def initialFault (image : List Byte) : Option (ImageFault × Nat) :=
  if imageByte image 3 ≠ 0 ∧ imageByte image 3 ∉ recordNumbers image then some (.initialField, 3)
  else match imageBand image with
    | none => none
    | some b => if b.valid (imageByte image 1) (imageByte image 2) then none else some (.band, 7)

/-- R154 check 12: the text runs, the place of a run before its characters. -/
def runsFault (size : Nat) : List (Nat × Nat × List Byte) → Option (ImageFault × Nat)
  | [] => none
  | (off, start, chars) :: rest =>
    if size ≤ start ∨ size < start + chars.length then some (.textPlace, off)
    else match chars.findIdx? fun c => !printable c with
      | some i => some (.character, off + 3 + i)
      | none => runsFault size rest

/-- R154: the first check an image fails, with the detail of the refusal. For check 7 the item is the header's image
length (log 14). -/
def imageFault (image : List Byte) (form : Byte) (closing rowsLoaded : Nat) : Option (ImageFault × Nat) :=
  match headerFault image form closing rowsLoaded with
  | some e => some e
  | none =>
    match imageRuns image with
    | none => some (.length, 12)
    | some (runs, after) =>
      if after ≠ closing then some (.length, 12)
      else
        ((recordsFault image (imageByte image 1 * 80) (imageByte image 4) 0 [] 0).or (initialFault image)).or
          (runsFault (imageByte image 1 * 80) runs)

/-! ### What failed and interrupted operations leave (R152; logs 9 and 10) -/

/-- A row whose program failed: free bytes that do not read back as given; the row is not left all erased, and a header
row does not carry the mark (R150, R152; log 9). -/
def failedRow (job : RowJob) (free : List Byte) : List Byte :=
  let row := if job.row = 0 then free.set 63 0xFF#8 else free
  if row = job.bytes ∨ row.all (fun b => b == 0xFF#8) then
    (if job.bytes.headD 0x00#8 = 0x00#8 then 0x01#8 else 0x00#8) :: job.bytes.tail.take 62 ++ [0xFF#8]
  else row

/-- A row whose program was interrupted: a header row is programmed from offset 0 upward and never carries the mark
(R144, section 11.4); a data row holds free bytes, and is not left all erased when bytes were given (R152; log 10). -/
def interruptedRow (job : RowJob) (free : List Byte) : List Byte :=
  if job.row = 0 then
    let done := 1 + (free.headD 0x00#8).toNat % 63
    job.bytes.take done ++ List.replicate (64 - done) 0xFF#8
  else if free.all (fun b => b == 0xFF#8) then job.bytes else free

/-- The bytes of a slot whose erase was interrupted: free, but its header row carries no mark, since its template is
not found again (R163; log 10). -/
def interruptedSlot (free : List Byte) : List Byte := if free.getD 63 0xFF#8 = completionMark then free.set 63 0xFF#8 else free

/-- The bytes of a slot whose erase failed: as after an interrupted erase, and some byte does not read 0xFF (R152). -/
def failedSlot (free : List Byte) : List Byte :=
  let bytes := interruptedSlot free
  if bytes.all (fun b => b == 0xFF#8) then bytes.set 0 0x00#8 else bytes

/-- The memory with the bytes of a row in place. -/
def putRow (m : Memory) (job : RowJob) (bytes : List Byte) : Memory :=
  Memory.writeList storeDefault m (rowAddress job.slot job.row) bytes

/-- The memory with the bytes of a whole slot in place. -/
def putSlot (m : Memory) (slot : Nat) (bytes : List Byte) : Memory :=
  Memory.writeList storeDefault (eraseSlot m slot) (rowAddress slot 0) bytes

end Sys2Proof.Machine
end

