-- ==== Sys2Proof/Machine/StoreRequests.lean ====
section
/-! DEFINITION. The store requests and the completions of store operations (sections 8.3, 8.4, 8.6, 8.7). -/

namespace Sys2Proof.Machine

/-! ### The slot table, the protect flags and the session -/

/-- The state of a slot. -/
def Store.slot (st : Store) (k : Nat) : SlotState := if h : k < 64 then st.slots[k] else .unknown

/-- Set the state of the slots for which `p` holds. -/
def Store.setSlots (st : Store) (p : Nat → Bool) (v : SlotState) : Store :=
  { st with slots := Vector.ofFn fun k : Fin 64 => if p k.1 then v else st.slots[k] }

/-- The number of slots in a state (R181). -/
def Store.countSlots (st : Store) (v : SlotState) : Nat := (st.slots.toList.filter fun x => x == v).length

/-- The protect flag of a group. -/
def Store.groupProtected (st : Store) (g : Nat) : Bool := if h : g < 16 then st.protect[g] else false

/-- R143, R147: a slot lies in a protected group. -/
def Store.slotProtected (st : Store) (k : Nat) : Bool := st.groupProtected (k / 4)

/-- R146: the directory entry of a form number. -/
def Store.lookup (st : Store) (form : Byte) : Option DirEntry := st.directory.find? fun e => e.form == form

/-- R155: the session's slots. -/
def Session.holds (ss : Session) (k : Nat) : Bool := decide (ss.first ≤ k ∧ k < ss.first + ss.count)

/-- R155: the capacity, in image rows. -/
def Session.capacity (ss : Session) : Nat := 31 * ss.count

/-- R155: the session as LOAD DATA, LOAD CLOSE and LOAD ABANDON see it: an abandoning one is taken as none. -/
def Store.activeSession (st : Store) : Option Session := st.session.filter fun ss => !ss.abandoning

/-- R158, R159, R160, R161: a session ends without a template: its begun slots become DIRTY, the others ERASED. -/
def Store.endSession (st : Store) (ss : Session) : Store :=
  { (st.setSlots ss.holds .erased).setSlots (fun k => ss.holds k && ss.begun.contains k) .dirty with
      session := none, rowsWaiting := [] }

/-- R158, R160: a row program begins, and its slot joins the begun slots. -/
def Store.beginRow (st : Store) (job : RowJob) (rest : List RowJob) : Store :=
  { st with
      op := some (.rowProgram job), rowsWaiting := rest
      session := st.session.map fun ss =>
        { ss with begun := if job.slot ∈ ss.begun then ss.begun else ss.begun ++ [job.slot] } }

/-- The state with a store in place. -/
def State.setStore (s : State) (st : Store) : State := { s with store := st }

/-! ### LOAD OPEN (R156) -/

/-- The slots of a range, in ascending order. -/
def slotRange (first count : Nat) : List Nat := (List.range count).map fun i => first + i

/-- R156 checks 5 to 7. -/
def Store.openFault (st : Store) (form : Byte) (first count : Nat) : Option Reply :=
  match st.lookup form with
  | some e => some (refuse .formExists 0 e.first)
  | none =>
    match (slotRange first count).find? fun k => st.slotProtected k with
    | some k => some (refuse .protectedGroup 0 (k / 4))
    | none =>
      match (slotRange first count).find? fun k => st.slot k != .erased with
      | some k => some (refuse .notErased 0 k)
      | none => none

/-- R156: an accepted LOAD OPEN. -/
def Store.openSession (st : Store) (form : Byte) (first count : Nat) : Store :=
  { st.setSlots (fun k => decide (first ≤ k ∧ k < first + count)) .loading with
      session := some
        { form := form, first := first, count := count, expected := 0, begun := [], failed := false, closing := none
          abandoning := false, frameRows := 0 } }

/-- R156: LOAD OPEN. -/
def handleLoadOpen (payload : List Byte) (s : State) : Reply × State :=
  if s.store.session.isSome then (refuse .sequence 0 0, s)
  else if s.store.op.isSome then (refuse .storeBusy 0 0, s)
  else match payload with
    | [form, first, count] =>
      if form.toNat < 1 ∨ 250 < form.toNat ∨ count.toNat < 1 ∨ 8 < count.toNat ∨ 64 < first.toNat + count.toNat then
        (refuse .badParameter 0 0, s)
      else match s.store.openFault form first.toNat count.toNat with
        | some r => (r, s)
        | none =>
          (accept [byte1 (31 * count.toNat)], s.setStore (s.store.openSession form first.toNat count.toNat))
    | _ => (refuse .badLength 0 0, s)

/-! ### LOAD DATA (R157, R158) -/

/-- The first k rows of 64 bytes of a run of bytes. -/
def rowsOf : Nat → List Byte → List (List Byte)
  | 0, _ => []
  | k + 1, bytes => bytes.take 64 :: rowsOf k (bytes.drop 64)

/-- R158: the row programs of image rows from k on. -/
def dataJobs (first : Nat) : Nat → List (List Byte) → List RowJob
  | _, [] => []
  | k, bytes :: rest =>
    { slot := (imageRowPlace first k).1, row := (imageRowPlace first k).2, bytes := bytes } :: dataJobs first (k + 1) rest

/-- R157: an accepted LOAD DATA begins the first row program. -/
def Store.beginData (st : Store) (ss : Session) (data : List Byte) : Store :=
  match dataJobs ss.first ss.expected (rowsOf (data.length / 64) data) with
  | [] => st
  | job :: rest => { st with session := some { ss with frameRows := data.length / 64 } }.beginRow job rest

/-- R157: LOAD DATA. -/
def handleLoadData (payload : List Byte) (s : State) : Reply × State :=
  match s.store.activeSession with
  | none => (refuse .sequence 0 0, s)
  | some ss =>
    if ss.failed then (refuse .programFault 0 0, s)
    else if s.store.op.isSome then (refuse .storeBusy 0 0, s)
    else match payload with
      | [] => (refuse .badLength 0 0, s)
      | row :: data =>
        if data.length < 64 ∨ 1024 < data.length ∨ data.length % 64 ≠ 0 then (refuse .badLength 0 0, s)
        else if row.toNat ≠ ss.expected then (refuse .sequence 0 ss.expected, s)
        else if ss.capacity < row.toNat + data.length / 64 then (refuse .badParameter 0 0, s)
        else (accept [], s.setStore (s.store.beginData ss data))

/-! ### LOAD CLOSE and LOAD ABANDON (R159 to R161) -/

/-- R160: the header row of a slot index of a session. -/
def Session.headerJob (ss : Session) (length index : Nat) : RowJob :=
  { slot := ss.first + index, row := 0
    bytes := ({ form := ss.form, index := index, count := ss.count, length := length } : Header).row }

/-- R160: the header rows in the order of their programs: the TAIL slots ascending, the HEAD slot last. -/
def Session.headerJobs (ss : Session) (length : Nat) : List RowJob :=
  (List.range (ss.count - 1)).map (fun i => ss.headerJob length (i + 1)) ++ [ss.headerJob length 0]

/-- R160: a valid LOAD CLOSE sets the closing mark and begins the first header row program. -/
def Store.beginClose (st : Store) (ss : Session) (length : Nat) : Store :=
  match ss.headerJobs length with
  | [] => st
  | job :: rest => { st with session := some { ss with closing := some length } }.beginRow job rest

/-- R159: the session's image as LOAD CLOSE reads it back, of the closing length. -/
def Store.loadedImage (st : Store) (ss : Session) (length : Nat) : List Byte := readImage st.mem ss.first length

/-- R159: LOAD CLOSE. -/
def handleLoadClose (payload : List Byte) (s : State) : Reply × State :=
  match s.store.activeSession with
  | none => (refuse .sequence 0 0, s)
  | some ss =>
    if ss.failed then (refuse .programFault 0 0, s)
    else if s.store.op.isSome then (refuse .storeBusy 0 0, s)
    else match payload with
      | [hi, lo] =>
        match imageFault (s.store.loadedImage ss (number [hi, lo])) ss.form (number [hi, lo]) ss.expected with
        | some (e, detail) => (refuse .imageInvalid e.code detail, s.setStore (s.store.endSession ss))
        | none => (accept [], s.setStore (s.store.beginClose ss (number [hi, lo])))
      | _ => (refuse .badLength 0 0, s)

/-- R161: a row program is in flight; while a session exists it is one of the session's. -/
def Store.rowInFlight (st : Store) : Bool :=
  match st.op with
  | some (.rowProgram _) => true
  | _ => false

/-- R161: an accepted LOAD ABANDON. -/
def Store.abandon (st : Store) (ss : Session) : Store :=
  if st.rowInFlight then { st with session := some { ss with abandoning := true } } else st.endSession ss

/-- R161: LOAD ABANDON. -/
def handleLoadAbandon (payload : List Byte) (s : State) : Reply × State :=
  match s.store.activeSession with
  | none => (refuse .sequence 0 0, s)
  | some ss => if payload = [] then (accept [], s.setStore (s.store.abandon ss)) else (refuse .badLength 0 0, s)

/-! ### ERASE SLOTS (R162) -/

/-- R162: some slot of a template lies in a protected group. -/
def Store.templateProtected (st : Store) (e : DirEntry) : Bool :=
  (slotRange e.first e.count).any fun k => st.slotProtected k

/-- R162 check 5: a template has a slot inside a range and a slot outside it. -/
def DirEntry.straddles (e : DirEntry) (first last : Nat) : Bool :=
  (slotRange e.first e.count).any (fun k => decide (first ≤ k ∧ k ≤ last)) &&
    (slotRange e.first e.count).any fun k => !decide (first ≤ k ∧ k ≤ last)

/-- R162: a slot of the range is skipped. -/
def Store.skips (st : Store) (k : Nat) : Bool :=
  st.slotProtected k || st.directory.any fun e => e.covers k && st.templateProtected e

/-- R162: a slot of the range is to be erased. -/
def Store.toErase (st : Store) (k : Nat) : Bool := !st.skips k && st.slot k != .erased

/-- R163: a slot erase begins. -/
def Store.beginErase (st : Store) (slot : Nat) (rest : List Nat) : Store :=
  { st with op := some (.slotErase slot), erasesWaiting := rest }

/-- R162: the range of an accepted ERASE SLOTS: its slots become DIRTY and its templates leave the directory. -/
def Store.condemn (st : Store) (slots : List Nat) : Store :=
  { st.setSlots (fun k => slots.contains k) .dirty with
      directory := st.directory.filter fun e => !slots.contains e.first }

/-- R162: ERASE SLOTS. -/
def handleEraseSlots (payload : List Byte) (s : State) : Reply × State :=
  if s.store.op.isSome then (refuse .storeBusy 0 0, s)
  else if s.store.session.isSome then (refuse .sequence 0 0, s)
  else match payload with
    | [first, last] =>
      if 63 < first.toNat ∨ 63 < last.toNat ∨ last.toNat < first.toNat then (refuse .badParameter 0 0, s)
      else match s.store.directory.find? fun e => e.straddles first.toNat last.toNat with
        | some e => (refuse .badParameter 1 e.first, s)
        | none =>
          let range := slotRange first.toNat (last.toNat + 1 - first.toNat)
          let slots := range.filter s.store.toErase
          let skipped := (range.filter s.store.skips).length
          match slots with
          | [] => (accept [0x00#8, byte1 skipped], s.raiseCtl causeStoreDone)
          | slot :: rest =>
            (accept [byte1 slots.length, byte1 skipped],
             s.setStore ((s.store.condemn slots).beginErase slot rest))
    | _ => (refuse .badLength 0 0, s)

/-! ### PROTECT (R164) -/

/-- R164: PROTECT. -/
def handleProtect (payload : List Byte) (s : State) : Reply × State :=
  if s.store.op.isSome then (refuse .storeBusy 0 0, s)
  else match payload with
    | [group, setting] =>
      if h : group.toNat < 16 then
        if 1 < setting.toNat then (refuse .badParameter 0 0, s)
        else if setting.toNat = 1 ∧ (slotRange (4 * group.toNat) 4).any (fun k => s.store.slot k == .loading) then
          (refuse .badParameter 2 group.toNat, s)
        else
          (accept [],
           s.setStore { s.store with op := some (.controlUpdate ⟨group.toNat, h⟩ (decide (setting.toNat = 1))) })
      else (refuse .badParameter 0 0, s)
    | _ => (refuse .badLength 0 0, s)

/-! ### Completions (R150, R158, R160, R161, R163, R164) -/

/-- The work in flight is over. -/
def Store.idle (st : Store) : Store := { st with op := none, rowsWaiting := [] }

/-- A directory entry in ascending order of first slot (R191). -/
def insertEntry (e : DirEntry) : List DirEntry → List DirEntry
  | [] => [e]
  | d :: ds => if e.first < d.first then e :: d :: ds else d :: insertEntry e ds

/-- R160: the template of a closed session is complete. -/
def Store.listTemplate (st : Store) (ss : Session) (length : Nat) : Store :=
  { (st.setSlots ss.holds .tail).setSlots (fun k => decide (k = ss.first)) .head with
      session := none, op := none, rowsWaiting := []
      directory := insertEntry { form := ss.form, first := ss.first, count := ss.count, length := length } st.directory }

/-- R158, R160: the last row of the work has been programmed with success. -/
def Store.finishRows (st : Store) (ss : Session) : Store :=
  match ss.closing with
  | some length => st.listTemplate ss length
  | none => { st.idle with session := some { ss with expected := ss.expected + ss.frameRows } }

/-- R158, R160, R161: a row program completes with success, the row in place. -/
def State.rowSuccess (s : State) (ss : Session) : State :=
  if ss.abandoning then s.setStore (s.store.idle.endSession ss)
  else match s.store.rowsWaiting with
    | job :: rest => s.setStore (s.store.beginRow job rest)
    | [] => (s.setStore (s.store.finishRows ss)).raiseCtl causeStoreDone

/-- R158, R160, R161: a row program of the session completes with failure. -/
def State.rowFailure (s : State) (ss : Session) : State :=
  (if ss.abandoning ∨ ss.closing.isSome then s.setStore (s.store.idle.endSession ss)
   else s.setStore { s.store.idle with session := some { ss with failed := true } }).raiseCtl causeStoreFault

/-- The memory after a row program: the bytes given, or what a failed program leaves. -/
def State.programRow (s : State) (job : RowJob) (success : Bool) : State :=
  if success then s.setStore { s.store with mem := putRow s.store.mem job job.bytes }
  else
    let f := s.takeFree 64
    f.2.setStore { s.store with mem := putRow s.store.mem job (failedRow job f.1) }

/-- R158, R160, R161: the row program in flight completes. -/
def State.rowComplete (s : State) (success : Bool) : State :=
  match s.store.op, s.store.session with
  | some (.rowProgram job), some ss =>
    if success then (s.programRow job true).rowSuccess ss else (s.programRow job false).rowFailure ss
  | some (.rowProgram job), none => (s.programRow job success).setStore (s.programRow job success).store.idle
  | _, _ => s

/-- R163: a slot erase completes with success: the slot is ERASED. -/
def Store.slotDone (st : Store) (slot : Nat) : Store :=
  { st with mem := eraseSlot st.mem slot }.setSlots (fun k => decide (k = slot)) .erased

/-- R163: one slot erase ends; a slot whose erase failed stays DIRTY, with STORE FAULT. -/
def State.eraseOne (s : State) (slot : Nat) (success : Bool) : State :=
  if success then s.setStore (s.store.slotDone slot)
  else
    let f := s.takeFree 2048
    (f.2.setStore { s.store with mem := putSlot s.store.mem slot (failedSlot f.1) }).raiseCtl causeStoreFault

/-- R163: the slot erase in flight completes: the next begins, or STORE DONE is raised after the last. -/
def State.eraseComplete (s : State) (success : Bool) : State :=
  match s.store.op with
  | some (.slotErase slot) =>
    let s := s.eraseOne slot success
    match s.store.erasesWaiting with
    | next :: rest => s.setStore (s.store.beginErase next rest)
    | [] => (s.setStore { s.store with op := none }).raiseCtl causeStoreDone
  | _ => s

/-- R164: the control update in flight completes. -/
def State.controlComplete (s : State) (success : Bool) : State :=
  match s.store.op with
  | some (.controlUpdate group setting) =>
    if success then
      (s.setStore { s.store with op := none, protect := s.store.protect.set group.1 setting group.2 }).raiseCtl
        causeStoreDone
    else (s.setStore { s.store with op := none }).raiseCtl causeStoreFault
  | _ => s

/-- R150: the start-up scan completes: RUNNING, with SCAN DIRTY when any slot is DIRTY. -/
def State.scanComplete (s : State) : State :=
  match s.store.op with
  | some .startUpScan =>
    let s := s.setStore s.store.scanned
    if s.store.countSlots .dirty = 0 then s else s.raiseCtl causeScanDirty
  | _ => s

/-! ### Abandoned by a reset (R152) -/

/-- R152: the memory that a store operation in flight leaves when a reset abandons it. -/
def State.abandonOp (s : State) : State :=
  match s.store.op with
  | some (.rowProgram job) =>
    let f := s.takeFree 64
    f.2.setStore { s.store with mem := putRow s.store.mem job (interruptedRow job f.1) }
  | some (.slotErase slot) =>
    let f := s.takeFree 2048
    f.2.setStore { s.store with mem := putSlot s.store.mem slot (interruptedSlot f.1) }
  | _ => s

/-! ### The meanings of the store completions -/

/-- START_UP_SCAN_COMPLETE (R150). -/
def execStartUpScanComplete (s : State) : Host.Outcome State Fault Refusal := .next s.scanComplete

/-- ROW_PROGRAM_COMPLETE (R158, R160, R161). -/
def execRowProgramComplete (success : Bool) (s : State) : Host.Outcome State Fault Refusal :=
  .next (s.rowComplete success)

/-- SLOT_ERASE_COMPLETE (R163). -/
def execSlotEraseComplete (success : Bool) (s : State) : Host.Outcome State Fault Refusal :=
  .next (s.eraseComplete success)

/-- CONTROL_UPDATE_COMPLETE (R164). -/
def execControlUpdateComplete (success : Bool) (s : State) : Host.Outcome State Fault Refusal :=
  .next (s.controlComplete success)

end Sys2Proof.Machine
end

