-- ==== Sys2Proof/Machine/Directives.lean ====
section
/-! DEFINITION. The WRITE frame: the directive stream, its two phases and the completion flags (chapter 3). -/

namespace Sys2Proof.Machine

/-! ### The stream (R45, R48, R53) -/

/-- R53: a directive with its operands. -/
inductive Directive where
  | form (number : Byte)
  | clear (rows header : Nat)
  | setPointer (address : Nat)
  | pointField (number : Nat)
  | pointBand (i j : Nat)
  | text (chars : List Byte)
  | fill (count : Nat) (char : Byte)
  | field (number start length : Nat) (props cls fill : Byte)
  | drop (number : Nat)
  | alter (number : Nat) (props cls fill : Byte)
  | cursor (address : Nat)
  | cursorField (number : Nat)
  | view (top : Nat)
  | viewBand (i : Nat)
  | eraseInput
  | untouch
  | message (chars : List Byte)
  | band (b : Band)
deriving DecidableEq, Repr

/-- R52, section 11.1: the subcodes of DIRECTIVE ERROR. -/
inductive DirFault where
  | unknownCode | cutShort | badAddress | noSuchField | overlap | badLength | badNumber | numberInUse | classRange
  | bandRange | noForm
deriving DecidableEq, Repr

def DirFault.code : DirFault → Nat
  | .unknownCode => 0x01
  | .cutShort => 0x02
  | .badAddress => 0x03
  | .noSuchField => 0x04
  | .overlap => 0x05
  | .badLength => 0x06
  | .badNumber => 0x07
  | .numberInUse => 0x08
  | .classRange => 0x09
  | .bandRange => 0x0A
  | .noForm => 0x0B

/-- What phase 1 finds at a directive's code. -/
inductive Parsed where
  | unknown
  | cut
  | found (d : Directive) (rest : List Byte)
deriving DecidableEq, Repr

/-- A directive whose count byte n is followed by n characters. -/
def parseCounted (make : List Byte → Directive) : List Byte → Parsed
  | [] => .cut
  | n :: rest => if rest.length < n.toNat then .cut else .found (make (rest.take n.toNat)) (rest.drop n.toNat)

/-- R53, section 11.3: the directive of a code and the bytes that follow it. -/
def parseDirective (code : Byte) (bytes : List Byte) : Parsed :=
  match code.toNat, bytes with
  | 0x01, f :: rest => .found (.form f) rest
  | 0x02, r :: h :: rest => .found (.clear r.toNat h.toNat) rest
  | 0x03, hi :: lo :: rest => .found (.setPointer (number [hi, lo])) rest
  | 0x04, f :: rest => .found (.pointField f.toNat) rest
  | 0x05, i :: j :: rest => .found (.pointBand i.toNat j.toNat) rest
  | 0x06, bytes => parseCounted .text bytes
  | 0x07, hi :: lo :: c :: rest => .found (.fill (number [hi, lo]) c) rest
  | 0x08, k :: hi :: lo :: n :: p :: c :: f :: rest =>
    .found (.field k.toNat (number [hi, lo]) n.toNat p c f) rest
  | 0x09, f :: rest => .found (.drop f.toNat) rest
  | 0x0A, k :: p :: c :: f :: rest => .found (.alter k.toNat p c f) rest
  | 0x0B, hi :: lo :: rest => .found (.cursor (number [hi, lo])) rest
  | 0x0C, f :: rest => .found (.cursorField f.toNat) rest
  | 0x0D, t :: rest => .found (.view t.toNat) rest
  | 0x0E, i :: rest => .found (.viewBand i.toNat) rest
  | 0x0F, rest => .found .eraseInput rest
  | 0x10, rest => .found .untouch rest
  | 0x11, bytes => parseCounted .message bytes
  | 0x12, f :: p :: k :: r :: h :: rest =>
    .found (.band { firstField := f.toNat, perItem := p.toNat, items := k.toNat, firstRow := r.toNat,
                    height := h.toNat }) rest
  | k, _ => if 0x01 ≤ k ∧ k ≤ 0x12 then .cut else .unknown

def Directive.isForm : Directive → Bool
  | .form _ => true
  | _ => false

/-- R48: phase 1: the directives with their offsets, or the refusal of the first failure in stream order. `fuel` is the
length of the stream; `busy` says that a store operation is in flight. -/
def walkStream (busy : Bool) : Nat → Nat → List Byte → Except Reply (List (Nat × Directive))
  | _, _, [] => .ok []
  | 0, _, _ :: _ => .ok []
  | fuel + 1, offset, code :: bytes =>
    match parseDirective code bytes with
    | .unknown => .error (refuse .directiveError DirFault.unknownCode.code offset)
    | .cut => .error (refuse .directiveError DirFault.cutShort.code offset)
    | .found d rest =>
      if d.isForm && busy then .error (refuse .storeBusy 0 offset)
      else
        match walkStream busy fuel (offset + 1 + (bytes.length - rest.length)) rest with
        | .error r => .error r
        | .ok ds => .ok ((offset, d) :: ds)

/-! ### Templates (R54, R153, R165) -/

/-- The field of a field record of an image; none for a record no validated image holds. -/
def templateField (image : List Byte) (i : Nat) : Option Field :=
  match fieldRecord image i with
  | [k, hi, lo, n, p, c, f, _] =>
    (classOf c).map fun cls =>
      { number := k.toNat, start := number [hi, lo], length := n.toNat, props := fieldPropsOf p cls f, touched := false }
  | _ => none

/-- R54: the fields of an image inserted in the order of their records. A field that does not fit the sheet, which no
validated image holds, is left out (log 20). -/
def Sheet.insertRecords (image : List Byte) : List Nat → Sheet → Sheet
  | [], sh => sh
  | i :: is, sh =>
    match templateField image i with
    | some f => Sheet.insertRecords image is (if sh.accepts f then sh.insertField f else sh)
    | none => Sheet.insertRecords image is sh

/-- R54: the text runs of an image written in order; what lies outside the sheet or the printable set, which no
validated image holds, is cut or replaced (log 20). -/
def Sheet.writeRuns : List (Nat × Nat × List Byte) → Sheet → Sheet
  | [], sh => sh
  | (_, start, chars) :: rest, sh =>
    Sheet.writeRuns rest (sh.putCells start ((chars.take (sh.size - start)).map toPrintable))

/-- R54: the band of an image, on the sheet. -/
def Sheet.bandFrom (image : List Byte) (sh : Sheet) : Option Band :=
  (imageBand image).filter fun b => b.valid sh.rows sh.header

/-- R54: the sheet an image builds, its cursor on the initial field. -/
def templateSheet (image : List Byte) : Sheet :=
  let base := Sheet.blank (clamp 24 72 (imageByte image 1)) (clamp 0 8 (imageByte image 2))
  let fields := Sheet.insertRecords image (List.range (imageByte image 4)) base
  let sheet := Sheet.writeRuns (((imageRuns image).map Prod.fst).getD []) fields
  { sheet with
      band := sheet.bandFrom image
      cursor := ((sheet.fieldNumbered (imageByte image 3)).map Field.start).getD 0 }

/-! ### Phase 2 (R52, R54 to R66) -/

/-- R45: what the DI holds for one frame: the write pointer and the two counts. -/
structure Writer where
  pointer     : Nat
  truncated   : Nat
  substituted : Nat
deriving DecidableEq, Repr

/-- R45: a count stops at 65535. -/
def addCount (a b : Nat) : Nat := min 65535 (a + b)

/-- R57, R58: characters written from the write pointer on, up to N; those that do not fit are counted truncated, and
those written that are not printable are counted substituted. -/
def writeText (w : Writer) (st : Station) (chars : List Byte) : Writer × Station :=
  let written := chars.take (st.sheet.size - w.pointer)
  ({ pointer := w.pointer + written.length
     truncated := addCount w.truncated (chars.length - written.length)
     substituted := addCount w.substituted (substitutions written) },
   st.putCells w.pointer (written.map toPrintable))

/-- R59: the checks of FIELD, in order. -/
def Sheet.fieldFault (sh : Sheet) (k start length : Nat) (cls : Byte) : Option DirFault :=
  if k < 1 ∨ 160 < k then some .badNumber
  else if (sh.fieldNumbered k).isSome then some .numberInUse
  else if length = 0 then some .badLength
  else if sh.size ≤ start ∨ sh.size < start + length then some .badAddress
  else if 15 < cls.toNat then some .classRange
  else if sh.fields.any fun g => decide (start < g.start + g.length ∧ g.start < start + length) then some .overlap
  else none

/-- R62: CURSOR and CURSORF set the cursor and apply the follow rule. -/
def Station.placeCursor (st : Station) (a : Nat) : Station := (st.setCursor a).follow

/-- R52: one directive, on the DI's values and the station; a failed check changes nothing. -/
def applyDirective (store : Store) (w : Writer) (st : Station) : Directive → Except DirFault (Writer × Station)
  | .form f =>
    match store.lookup f with
    | none => .error .noForm
    | some e => .ok ({ w with pointer := 0 }, (st.replaceSheet (templateSheet (readImage store.mem e.first e.length))).follow)
  | .clear rows header => .ok ({ w with pointer := 0 }, st.replaceSheet (Sheet.blank (clamp 24 72 rows) (clamp 0 8 header)))
  | .setPointer a => if a < st.sheet.size then .ok ({ w with pointer := a }, st) else .error .badAddress
  | .pointField k =>
    match st.sheet.fieldNumbered k with
    | some f => .ok ({ w with pointer := f.start }, st)
    | none => .error .noSuchField
  | .pointBand i j =>
    match st.sheet.bandField i j with
    | none => .error .bandRange
    | some k =>
      match st.sheet.fieldNumbered k with
      | some f => .ok ({ w with pointer := f.start }, st)
      | none => .error .noSuchField
  | .text chars => .ok (writeText w st chars)
  | .fill count c => .ok (writeText w st (List.replicate count c))
  | .field k start length props cls fill =>
    match st.sheet.fieldFault k start length cls, classOf cls with
    | some e, _ => .error e
    | none, none => .error .classRange
    | none, some c =>
      let f : Field := { number := k, start := start, length := length, props := fieldPropsOf props c fill,
                         touched := false }
      .ok (w, { st with sheet := st.sheet.insertField f }.markField f)
  | .drop k =>
    match st.sheet.fieldNumbered k with
    | some f => .ok (w, { st with sheet := st.sheet.dropField k }.markField f)
    | none => .error .noSuchField
  | .alter k props cls fill =>
    match st.sheet.fieldNumbered k, classOf cls with
    | none, _ => .error .noSuchField
    | some _, none => .error .classRange
    | some f, some c =>
      .ok (w, { st with sheet := st.sheet.changeField k fun g => { g with props := fieldPropsOf props c fill } }.markField f)
  | .cursor a => if a < st.sheet.size then .ok (w, st.placeCursor a) else .error .badAddress
  | .cursorField k =>
    match st.sheet.fieldNumbered k with
    | some f => .ok (w, st.placeCursor f.start)
    | none => .error .noSuchField
  | .view t => .ok (w, st.setTop (st.sheet.clampTop t))
  | .viewBand i =>
    match st.sheet.bandRow i with
    | some r => .ok (w, st.setTop (st.sheet.clampTop r))
    | none => .error .bandRange
  | .eraseInput => .ok (w, st.eraseInput)
  | .untouch => .ok (w, { st with sheet := st.sheet.untouchAll })
  | .message chars =>
    if 40 < chars.length then .error .badLength
    else .ok ({ w with substituted := addCount w.substituted (substitutions chars) },
              st.setMessage (chars.map toPrintable))
  | .band b =>
    if b.items = 0 then .ok (w, { st with sheet := { st.sheet with band := none } })
    else if b.valid st.sheet.rows st.sheet.header then .ok (w, { st with sheet := { st.sheet with band := some b } })
    else .error .bandRange

/-- R52: phase 2: the directives in stream order, up to the first that fails; the failure with its offset, and what
the directives before it left. -/
def applyStream (store : Store) : List (Nat × Directive) → Writer → Station → Option (DirFault × Nat) × Writer × Station
  | [], w, st => (none, w, st)
  | (offset, d) :: ds, w, st =>
    match applyDirective store w st d with
    | .error e => (some (e, offset), w, st)
    | .ok (w', st') => applyStream store ds w' st'

/-! ### Completion flags (R47, R67 to R69) -/

def flagUnlock (flags : Byte) : Bool := flags.getLsbD 0
def flagLock (flags : Byte) : Bool := flags.getLsbD 1
def flagAlarm (flags : Byte) : Bool := flags.getLsbD 2
def flagUntouch (flags : Byte) : Bool := flags.getLsbD 3
def flagDiscard (flags : Byte) : Bool := flags.getLsbD 4

/-- R68: the LOCK or UNLOCK step at the station; UNLOCK counts when both are set. -/
def Station.lockStep (st : Station) (flags : Byte) : Station :=
  match st.input with
  | .released => st
  | .roomWait => st
  | _ =>
    if flagUnlock flags then st.setInput .entry
    else if flagLock flags then st.dropScan.setInput .locked
    else st

/-- R68, R89: UNLOCK from LOCKED or WAITING replays the type-ahead queue. -/
def Station.replaysOn (st : Station) (flags : Byte) : Bool :=
  flagUnlock flags && (st.input == .locked || st.input == .waiting)

/-- R67: UNTOUCH, and then the LOCK or UNLOCK step. -/
def State.flagsToLock (s : State) (n : StationIx) (flags : Byte) : State :=
  s.onStation n fun st =>
    (if flagUntouch flags then { st with sheet := st.sheet.untouchAll } else st).lockStep flags

/-- R67 to R69: the completion flags in their order, with the replay that UNLOCK begins. -/
def State.applyFlags (s : State) (n : StationIx) (flags : Byte) : State :=
  let locked := s.flagsToLock n flags
  let replayed := if (s.station n).replaysOn flags then locked.replay n else locked
  if flagAlarm flags then replayed.onStation n Station.requestAlarm else replayed

/-! ### The frame (R46) -/

/-- R70: the payload of the ACCEPT: the link state, the input state as the LOCK or UNLOCK step left it, the counts. -/
def writeAnswer (st : Station) (w : Writer) : List Byte :=
  [st.link.code, st.input.code] ++ bytes2 w.truncated ++ bytes2 w.substituted

/-- R50, R51: steps 5 and 6 of R46: a pending release is discarded and the edited-field register is cleared. -/
def State.beforeDirectives (s : State) (n : StationIx) : State :=
  (if (s.station n).releasePending then
    (s.discardRelease n).onStation n fun st => st.setInput .locked
   else s).onStation n fun st => st.setEdited none

/-- R46 steps 5 to 9, for a stream that passed phase 1. -/
def State.applyWrite (s : State) (n : StationIx) (flags : Byte) (ds : List (Nat × Directive)) : Reply × State :=
  let s := s.beforeDirectives n
  match applyStream s.store ds { pointer := 0, truncated := 0, substituted := 0 } (s.station n) with
  | (some (e, offset), _, st) => (refuse .directiveError e.code offset, s.setStation n st)
  | (none, w, st) =>
    let s := s.setStation n st
    (accept (writeAnswer ((s.flagsToLock n flags).station n) w), s.applyFlags n flags)

/-- R46: WRITE. -/
def handleWrite (n : StationIx) (payload : List Byte) (s : State) : Reply × State :=
  if (s.station n).link = .disabled then (refuse .stationDisabled 0 0, s)
  else match payload with
    | [] => (refuse .badLength 0 0, s)
    | flags :: stream =>
      if (s.station n).releasePending && !flagDiscard flags then
        (refuse .releasePending 0 (s.station n).input.code.toNat, s)
      else match walkStream s.store.op.isSome stream.length 1 stream with
        | .error r => (r, s)
        | .ok ds => s.applyWrite n flags ds

end Sys2Proof.Machine
end

