-- ==== Sys2Proof/Machine/Management.lean ====
section
/-! DEFINITION. The management requests (chapter 10), POLL and READ FORM (sections 7.5, 7.7). Each handling takes the
payload and the state and gives the answer and the state it leaves. -/

namespace Sys2Proof.Machine

/-- R180: a payload whose length is not the layout's is refused with the received length as detail. -/
def badLength (payload : List Byte) : Reply := refuse .badLength 0 payload.length

/-! ### POLL and READ FORM -/

/-- R137: the answer that hands over a record. -/
def releaseReply (r : Record) : Reply :=
  { kind := .release, payload := r.bytes, station := some (stationByte r.station), restart := false }

/-- R137: the answer to a POLL for which a record was chosen or not. -/
def pollReply : Option Record → Reply
  | some r => releaseReply r
  | none => reply .nothing []

/-- R137: POLL; `n` is none for station 0. -/
def handlePoll (n : Option StationIx) (payload : List Byte) (s : State) : Reply × State :=
  if payload = [] then
    (pollReply (match n with
      | none => s.rq.oldest
      | some n => s.rq.recordOf n), s)
  else (refuse .badLength 0 0, s)

/-- R141: READ FORM. -/
def handleReadForm (n : StationIx) (payload : List Byte) (s : State) : Reply × State :=
  match payload with
  | [hi, lo, scope] =>
    match scopeOf scope with
    | some selected => (reply .formData ((s.station n).formData (number [hi, lo]) selected), s)
    | none => (refuse .badParameter 0 0, s)
  | _ => (refuse .badLength 0 0, s)

/-! ### Reading (R181, R182, R187, R189, R191) -/

/-- R181: the 13 bytes of STATUS. -/
def State.statusInfo (s : State) : List Byte :=
  [s.store.phase.code, storeOpCode s.store.op, sessionCode s.store.session,
   byte1 ((s.store.session.map Session.expected).getD 0)] ++ bytes2 s.rq.staging ++
  [byte1 s.rq.queue.length, byte1 s.rq.rooms.length, byte1 s.store.directory.length,
   byte1 (s.store.countSlots .erased), byte1 (s.store.countSlots .dirty), s.unitAddr, 0x01#8]

/-- R181: STATUS. -/
def handleStatus (payload : List Byte) (s : State) : Reply × State :=
  if payload = [] then (reply .info s.statusInfo, s) else (badLength payload, s)

/-- The eleven profile bytes, in STATION SETUP order from enable (section 11.2). -/
def Profile.bytes (p : Profile) : List Byte :=
  [flagCode p.enable, byte1 p.keyMap.1] ++ bytes2 p.repeatDelay ++ bytes2 p.repeatPeriod ++
    [byte1 p.chatter, p.suffix, byte1 p.gap, flagCode p.advance, p.releaseCode]

/-- The five band bytes of STATION READ; all 0 when the sheet has no band (R182). -/
def bandBytes : Option Band → List Byte
  | none => [0x00#8, 0x00#8, 0x00#8, 0x00#8, 0x00#8]
  | some b => [byte1 b.firstField, byte1 b.perItem, byte1 b.items, byte1 b.firstRow, byte1 b.height]

/-- R182: the 32 bytes of STATION READ. -/
def Station.info (st : Station) : List Byte :=
  st.profile.bytes ++ [st.link.code, st.input.code, byte1 (errorNumber st.error)] ++ bytes2 st.sheet.cursor ++
    [byte1 st.sheet.top, byte1 st.sheet.rows, byte1 st.sheet.header, byte1 st.sheet.fields.length] ++
    bandBytes st.sheet.band ++
    [flagCode st.sheet.insert, flagCode st.scan.isSome, byte1 st.typeAhead.length] ++
    bytes2 st.keysDiscarded.toNat ++ bytes2 st.scanRejects.toNat

/-- R182: STATION READ. -/
def handleStationRead (payload : List Byte) (s : State) : Reply × State :=
  match payload with
  | [k] =>
    match stationOf k with
    | some n => (reply .info (s.station n).info, s)
    | none => (refuse .badParameter 0 k.toNat, s)
  | _ => (badLength payload, s)

/-- R187: the 15 bytes of ATTENTION READ. -/
def State.attentionInfo (s : State) : List Byte := s.causes.toList ++ [s.stationMask, s.ctlMask]

/-- R187: ATTENTION READ. -/
def handleAttentionRead (payload : List Byte) (s : State) : Reply × State :=
  if payload = [] then (reply .info s.attentionInfo, s) else (badLength payload, s)

/-- R189: the two counters of a station. -/
def Station.counters (st : Station) : List Byte := bytes2 st.keysDiscarded.toNat ++ bytes2 st.scanRejects.toNat

/-- R189: the 54 bytes of COUNTERS READ. -/
def State.countersInfo (s : State) : List Byte :=
  bytes2 s.checkFails.toNat ++ bytes2 s.framingErrors.toNat ++ bytes2 s.refusals.toNat ++
    s.stations.toList.flatMap Station.counters

/-- R189: COUNTERS READ. -/
def handleCountersRead (payload : List Byte) (s : State) : Reply × State :=
  if payload = [] then (reply .info s.countersInfo, s) else (badLength payload, s)

/-- R191: the bytes of a directory entry. -/
def DirEntry.bytes (e : DirEntry) : List Byte := [e.form, byte1 e.first, byte1 e.count] ++ bytes2 e.length

/-- R191, section 11.2: the protect flags, bit g of the 16-bit value for group g. -/
def Store.protectWord (st : Store) : Nat :=
  ((List.finRange 16).map fun g => if st.protect[g] then 2 ^ g.1 else 0).sum

/-- R191: the payload of DIRECTORY READ. -/
def Store.directoryInfo (st : Store) : List Byte :=
  byte1 st.directory.length :: st.directory.flatMap DirEntry.bytes ++ st.slots.toList.map SlotState.code ++
    bytes2 st.protectWord

/-- R191: DIRECTORY READ. -/
def handleDirectoryRead (payload : List Byte) (s : State) : Reply × State :=
  if payload = [] then (reply .info s.store.directoryInfo, s) else (badLength payload, s)

/-! ### STATION SETUP (R32, R183) -/

/-- R32: the profile a request carries, clamped, with its key map 0..3. -/
def profileOf (enable : Byte) (keyMap : Fin 4) (delay period : Nat) (chatter suffix gap advance code : Byte) : Profile :=
  { enable := flagByte enable, keyMap := keyMap, repeatDelay := clamp 150 1000 delay
    repeatPeriod := clamp 30 500 period, chatter := clamp 0 30 chatter.toNat, suffix := suffix
    gap := clamp 10 250 gap.toNat, advance := flagByte advance, releaseCode := code }

/-- R183: what an accepted STATION SETUP does, by the enable carried and the link state. -/
def State.setup (s : State) (n : StationIx) (p : Profile) : State :=
  match p.enable, (s.station n).link with
  | true, .disabled => s.onStation n fun st => st.enable p
  | true, _ => s.onStation n fun st => { st with profile := p }
  | false, .disabled => s.onStation n fun st => { st with profile := p }
  | false, _ => s.disable n p

/-- R183: STATION SETUP. -/
def handleStationSetup (payload : List Byte) (s : State) : Reply × State :=
  match payload with
  | [k, enable, keyMap, dh, dl, ph, pl, chatter, suffix, gap, advance, code] =>
    match stationOf k with
    | none => (refuse .badParameter 0 k.toNat, s)
    | some n =>
      if h : keyMap.toNat < 4 then
        if 0xEF < code.toNat then (refuse .badParameter 2 code.toNat, s)
        else
          (accept [], s.setup n (profileOf enable ⟨keyMap.toNat, h⟩ (number [dh, dl]) (number [ph, pl]) chatter suffix
            gap advance code))
      else (refuse .badParameter 1 keyMap.toNat, s)
  | _ => (badLength payload, s)

/-! ### CLASS SET (R184) and KEYMAP SET (R185) -/

/-- Section 11.2: the character set codes. -/
def charSetOf (b : Byte) : Option CharSet :=
  match b.toNat with
  | 0 => some .any
  | 1 => some .digits
  | 2 => some .letters
  | 3 => some .alnum
  | 4 => some .listed
  | _ => none

/-- Section 11.2: the rule codes. -/
def valueRuleOf (b : Byte) : Option ValueRule :=
  match b.toNat with
  | 0 => some .none
  | 1 => some .mod10
  | 2 => some .range
  | _ => none

/-- R109, R184: the greatest min and max. -/
def maxBound : Nat := 999999999

/-- R184: the record of a class 1..15 is replaced. -/
def State.setClass (s : State) (k : Nat) (r : ClassRec) : State :=
  if h : k - 1 < 15 then { s with classes := s.classes.set (k - 1) r h } else s

/-- R184: the value checks of CLASS SET, in order. -/
def classFault (cls chars rule : Byte) (low high : Nat) : Option Reply :=
  if cls.toNat < 1 ∨ 15 < cls.toNat then some (refuse .badParameter 0 cls.toNat)
  else if 4 < chars.toNat then some (refuse .badParameter 1 chars.toNat)
  else if 2 < rule.toNat then some (refuse .badParameter 2 rule.toNat)
  else if maxBound < low then some (refuse .badParameter 3 0)
  else if maxBound < high then some (refuse .badParameter 3 1)
  else none

/-- The class record a CLASS SET carries. -/
def classRecOf (chars fold rule : Byte) (low high : Nat) (permits : List Byte) : ClassRec :=
  { chars := (charSetOf chars).getD .any, permits := BitVec.ofNat 96 (number permits), fold := flagByte fold
    rule := (valueRuleOf rule).getD .none, low := low, high := high }

/-- R184: CLASS SET. -/
def handleClassSet (payload : List Byte) (s : State) : Reply × State :=
  match payload with
  | cls :: chars :: fold :: rule :: a3 :: a2 :: a1 :: a0 :: b3 :: b2 :: b1 :: b0 :: permits =>
    if permits.length = 12 then
      match classFault cls chars rule (number [a3, a2, a1, a0]) (number [b3, b2, b1, b0]) with
      | some r => (r, s)
      | none =>
        (accept [], s.setClass cls.toNat
          (classRecOf chars fold rule (number [a3, a2, a1, a0]) (number [b3, b2, b1, b0]) permits))
    else (badLength payload, s)
  | _ => (badLength payload, s)

/-- R185: the bytes of a run of entries are replaced. -/
def State.setEntries (s : State) (a : Nat) (bytes : List Byte) : State :=
  { s with keyMaps := Memory.writeList mapDefault s.keyMaps a bytes }

/-- R185: KEYMAP SET. -/
def handleKeymapSet (payload : List Byte) (s : State) : Reply × State :=
  match payload with
  | m :: plane :: first :: count :: entries =>
    if entries.length = 2 * count.toNat then
      if m.toNat < 1 ∨ 3 < m.toNat then (refuse .badParameter 0 m.toNat, s)
      else if 3 < plane.toNat then (refuse .badParameter 1 plane.toNat, s)
      else if count.toNat < 1 ∨ first.toNat < 1 ∨ 127 < first.toNat + count.toNat - 1 then
        (refuse .badParameter 2 first.toNat, s)
      else
        (accept [], s.setEntries (mapAddress m.toNat plane.toNat first.toNat) entries)
    else (badLength payload, s)
  | _ => (badLength payload, s)

/-! ### Attention (R187, R188) -/

/-- R187: clear the causes of a station 0..12 that the octet names; positions that name none are ignored. -/
def State.clearCauses (s : State) (i : Fin 13) (octet : Byte) : State :=
  { s with causes := s.causes.set i.1 (s.causes[i] &&& ~~~(octet &&& causeBits i)) i.2 }

/-- R187: ATTENTION CLEAR. -/
def handleAttentionClear (payload : List Byte) (s : State) : Reply × State :=
  match payload with
  | [k, octet] =>
    if h : k.toNat < 13 then (accept [], s.clearCauses ⟨k.toNat, h⟩ octet) else (refuse .badParameter 0 k.toNat, s)
  | _ => (badLength payload, s)

/-- R188: ATTENTION MASK; positions that name no cause are taken as clear. -/
def handleAttentionMask (payload : List Byte) (s : State) : Reply × State :=
  match payload with
  | [a, b] => (accept [], { s with stationMask := a &&& stationCauseBits, ctlMask := b &&& ctlCauseBits })
  | _ => (badLength payload, s)

/-! ### BROADCAST MESSAGE (R190) and RESTART (R179) -/

/-- R190: a station whose link is not DISABLED is reached. -/
def Station.reached (st : Station) : Bool := st.link != .disabled

/-- R190: the message area of every station reached is set. -/
def State.broadcast (s : State) (chars : List Byte) : State :=
  { s with stations := s.stations.map fun st => if st.reached then st.setMessage (chars.map toPrintable) else st }

/-- R190: BROADCAST MESSAGE. -/
def handleBroadcast (payload : List Byte) (s : State) : Reply × State :=
  if 40 < payload.length then (badLength payload, s)
  else
    (accept [byte1 (s.stations.toList.filter Station.reached).length, byte1 (substitutions payload)],
     s.broadcast payload)

/-- R179: RESTART is answered ACCEPT and changes nothing; the restart is performed when that answer completes. -/
def handleRestart (payload : List Byte) (s : State) : Reply × State :=
  if payload = [] then ({ accept [] with restart := true }, s) else (badLength payload, s)

end Sys2Proof.Machine
end

