-- ==== Sys2Proof/Machine/Resets.lean ====
section
/-! DEFINITION. Power-on reset and RESTART (R148, R152, R179, and the reset values of every block's rules). -/

namespace Sys2Proof.Machine

/-- Every block takes its reset values, with the given unit address and line rate. The template memory and the protect
flags are kept (R143, R147), as a store operation in flight leaves them when it is abandoned (R152); the commands that
wait and the counter of free values are the model's own. -/
def State.afterReset (s : State) (unitAddr : Byte) (lineRate : BitVec 2) : State :=
  { State.reset with
      unitAddr := unitAddr, lineRate := lineRate
      store := Store.starting s.abandonOp.store.mem s.abandonOp.store.protect
      freeCount := s.abandonOp.freeCount, pending := s.pending }

/-- R179: a unit address strap value of 0 is taken as 1. -/
def strapAddress (straps : BitVec 5) : Byte := if straps = 0 then 0x01#8 else straps.setWidth 8

/-- R179: a restart keeps the unit address and the line rate. -/
def State.restart (s : State) : State := s.afterReset s.unitAddr s.lineRate

/-- POWER_ON_RESET (R179). -/
def execPowerOnReset (unitStraps : BitVec 5) (rateStraps : BitVec 2) (s : State) : Host.Outcome State Fault Refusal :=
  .next (s.afterReset (strapAddress unitStraps) rateStraps)

end Sys2Proof.Machine
end

