-- ==== Sys2Proof/Machine/HostLine.lean ====
section
/-! DEFINITION. The host line: dispatch, the receiver, the answer in flight and its completion (sections 9.1 to 9.4,
R179). -/

namespace Sys2Proof.Machine

/-! ### Dispatch (R174) -/

/-- R174 step 3. -/
def refuseStation (station : Byte) : Reply := refuse .badStation 0 station.toNat

/-- R174 step 3 for a kind sent to a station 1..12. -/
def toStation (station : Byte) (s : State) (handle : StationIx → Reply × State) : Reply × State :=
  match stationOf station with
  | some n => handle n
  | none => (refuseStation station, s)

/-- R174 step 3 for a kind sent to station 0. -/
def toController (station : Byte) (s : State) (handled : Reply × State) : Reply × State :=
  if station = 0x00#8 then handled else (refuseStation station, s)

/-- R174 steps 3 and 4: the station byte is checked and the frame handed to the handling of its kind. -/
def State.handle (s : State) (kind : DownKind) (station : Byte) (payload : List Byte) : Reply × State :=
  match kind with
  | .poll => if station = 0x00#8 then handlePoll none payload s else toStation station s fun n => handlePoll (some n) payload s
  | .write => toStation station s fun n => handleWrite n payload s
  | .readForm => toStation station s fun n => handleReadForm n payload s
  | .status => toController station s (handleStatus payload s)
  | .stationSetup => toController station s (handleStationSetup payload s)
  | .stationRead => toController station s (handleStationRead payload s)
  | .classSet => toController station s (handleClassSet payload s)
  | .keymapSet => toController station s (handleKeymapSet payload s)
  | .attentionRead => toController station s (handleAttentionRead payload s)
  | .attentionClear => toController station s (handleAttentionClear payload s)
  | .attentionMask => toController station s (handleAttentionMask payload s)
  | .countersRead => toController station s (handleCountersRead payload s)
  | .broadcastMessage => toController station s (handleBroadcast payload s)
  | .restart => toController station s (handleRestart payload s)
  | .directoryRead => toController station s (handleDirectoryRead payload s)
  | .loadOpen => toController station s (handleLoadOpen payload s)
  | .loadData => toController station s (handleLoadData payload s)
  | .loadClose => toController station s (handleLoadClose payload s)
  | .loadAbandon => toController station s (handleLoadAbandon payload s)
  | .eraseSlots => toController station s (handleEraseSlots payload s)
  | .protect => toController station s (handleProtect payload s)

/-- R174: the first check that applies gives the answer. -/
def State.dispatch (s : State) (kind station : Byte) (payload : List Byte) : Reply × State :=
  if s.store.phase = .starting ∧ kind ≠ DownKind.status.code then (refuse .starting 0 0, s)
  else match DownKind.ofByte kind with
    | none => (refuse .unknownKind 0 kind.toNat, s)
    | some k => s.handle k station payload

/-- R171, R175: the frame is handled and its answer composed. -/
def State.answerFrame (s : State) (kind station : Byte) (payload : List Byte) : State :=
  (s.dispatch kind station payload).2.respond station (s.dispatch kind station payload).1

/-! ### The receiver (R167 to R170, R172) -/

/-- R167: the quiet a mark wants before it, 2 ms. -/
def quietTime : Nat := 2

/-- R169: the 20 ms allowed between bytes of a frame. -/
def gapTime : Nat := 20

/-- R168: the greatest payload length. -/
def maxPayload : Nat := 2048

/-- R167: the line has been quiet long enough for a mark. -/
def State.lineQuiet (s : State) : Bool := !s.hostDriverEnabled && s.quietLeft == 0

/-- R167, R172: a byte arriving from the line restarts the quiet timer and abandons an answer in flight. -/
def State.byteSeen (s : State) : State := { s with answer := none, quietLeft := quietTime }

/-- R167: the receiver returns to HUNTING. -/
def State.hunt (s : State) : State := { s with receiver := .hunting }

/-- R168, R169: the frame is aborted. -/
def State.abortFrame (s : State) : State := { s.hunt with framingErrors := s.framingErrors + 1 }

/-- R170: the check failed on a frame for this unit. -/
def State.failCheck (s : State) (station : Byte) : State :=
  { s with checkFails := s.checkFails + 1 }.respond station (reply .checkFail [])

/-- R168: the length that the bytes of a frame give, once the second length byte is there. -/
def lengthField : List Byte → Option Nat
  | _ :: _ :: _ :: hi :: lo :: _ => some (number [hi, lo])
  | _ => none

/-- R170: a whole frame, its bytes from the unit byte on split into those the check covers and the check bytes. -/
def State.wholeFrame (s : State) (body check : List Byte) : State :=
  match body with
  | unit :: station :: kind :: _ :: _ :: payload =>
    if unit ≠ s.unitAddr then s.hunt
    else if (crc body).toNat = number check then s.hunt.answerFrame kind station payload
    else s.hunt.failCheck station
  | _ => s.hunt

/-- R168: the frame bytes taken so far, the last just received. -/
def State.frameBytes (s : State) (bytes : List Byte) : State :=
  match lengthField bytes with
  | none => { s with receiver := .inFrame bytes gapTime }
  | some len =>
    if maxPayload < len then s.abortFrame
    else if bytes.length < len + 7 then { s with receiver := .inFrame bytes gapTime }
    else s.wholeFrame (bytes.take (len + 5)) (bytes.drop (len + 5))

/-- R167, R168: a byte received well. -/
def State.goodByte (s : State) (b : Byte) : State :=
  match s.receiver with
  | .hunting => if b = 0xC3#8 ∧ s.lineQuiet then { s.byteSeen with receiver := .inFrame [] gapTime } else s.byteSeen
  | .inFrame bytes _ => s.byteSeen.frameBytes (bytes ++ [b])

/-- R167, R168: a byte that aborts the frame in progress; while HUNTING it is discarded. -/
def State.abortingByte (s : State) : State :=
  match s.receiver with
  | .hunting => s.byteSeen
  | .inFrame _ _ => s.byteSeen.abortFrame

/-- R172: a byte received is the byte being sent, read back with a good stop bit. -/
def State.readsBack (s : State) (b : Byte) (badStop : Bool) : Bool := !badStop && s.byteBeingSent == some b

/-- R167, R172: the byte being sent has been read back; it restarts the quiet timer like every byte on the line. -/
def State.advanceAnswer (s : State) : State :=
  { s with answer := s.answer.map fun a => { a with readBack := a.readBack + 1 }, quietLeft := quietTime }

/-- R167, R168, R172: a byte on the host line: the one being sent, or one arriving from the line. -/
def State.takeByte (s : State) (b : Byte) (badStop : Bool) : State :=
  if s.readsBack b badStop then s.advanceAnswer
  else if badStop then s.abortingByte
  else s.goodByte b

/-- R169: the 20 ms without a byte run out; the line has then been quiet for 20 ms. -/
def State.gapTimeout (s : State) : State :=
  match s.receiver with
  | .hunting => s
  | .inFrame _ _ => { s.abortFrame with quietLeft := 0 }

/-- R167, R172: a whole frame given as one command (log 7). Its last byte restarts the quiet timer; an answer that was
pending is abandoned and the frame taken; while an answer is being sent the frame is lost with it. -/
def State.takeWhole (s : State) (taken : State → State) : State :=
  if s.hostDriverEnabled then s.byteSeen.hunt else taken s.byteSeen.hunt

/-- R168, R170: a whole matching frame for this unit; a length field above 2048 aborts it instead. -/
def State.takeFrame (s : State) (kind station : Byte) (payload : List Byte) : State :=
  s.takeWhole fun s => if maxPayload < payload.length then s.abortFrame else s.answerFrame kind station payload

/-! ### The answer in flight (R171, R173) -/

/-- R171: the first byte of the pending answer goes out; HDE is driven while it is sent. -/
def State.startSending (s : State) : State :=
  match s.answer with
  | none => s
  | some a => if a.sending then s else { s with answer := some { a with sending := true }, quietLeft := quietTime }

/-- R173: what the completion of an answer hands on. -/
def State.handOn (s : State) (a : Answer) : State :=
  if a.kind = .release then
    match stationOf a.station with
    | some n => s.completeRelease n
    | none => s
  else if a.restart then s.restart
  else s

/-- R173: the last check byte of the answer has been sent. -/
def State.completeAnswer (s : State) : State :=
  match s.answer with
  | none => s
  | some a => if a.sending then s.byteSeen.handOn a else s

/-! ### The meanings of the host line commands -/

/-- MARK (R167): the byte 0xC3 arrives; where it is no mark it is taken as the byte it is (log 7). -/
def execMark (s : State) : Host.Outcome State Fault Refusal := .next (s.takeByte 0xC3#8 false)

/-- QUIET_TIMER_EXPIRY (R167). The line is not quiet while an answer is sent. -/
def execQuietTimerExpiry (s : State) : Host.Outcome State Fault Refusal :=
  .next (if s.hostDriverEnabled then s else { s with quietLeft := 0 })

/-- FRAME_ABORT (R168). With no frame in progress there is none to abort (log 3). -/
def execFrameAbort (s : State) : Host.Outcome State Fault Refusal :=
  match s.receiver with
  | .hunting => .next s
  | .inFrame _ _ => .next s.abortingByte

/-- FRAME_GAP_TIMEOUT (R169). -/
def execFrameGapTimeout (s : State) : Host.Outcome State Fault Refusal := .next s.gapTimeout

/-- HOST_LINE_BYTE (R167, R168). A byte that is a mark or completes a frame is handled as that (log 7). -/
def execHostLineByte (b : Byte) (badStop : Bool) (s : State) : Host.Outcome State Fault Refusal :=
  .next (s.takeByte b badStop)

/-- CHECKFAIL (R170). -/
def execCheckFail (station : Byte) (s : State) : Host.Outcome State Fault Refusal :=
  .next (s.takeWhole fun s => s.failCheck station)

/-- FRAME_FOR_OTHER_UNIT (R170). -/
def execFrameForOtherUnit (s : State) : Host.Outcome State Fault Refusal := .next (s.takeWhole fun s => s)

/-- UNKNOWN_KIND (R174): dispatched by the kind byte it carries. -/
def execUnknownKind (station kind : Byte) (payload : List Byte) (s : State) : Host.Outcome State Fault Refusal :=
  .next (s.takeFrame kind station payload)

/-- ANSWER_SEND_START (R171). -/
def execAnswerSendStart (s : State) : Host.Outcome State Fault Refusal := .next s.startSending

/-- ANSWER_ABANDONED (R172): a byte arrives that abandons the answer in flight. With no answer in flight, or with the
byte being sent read back as it was sent, nothing is abandoned and nothing changes (log 3). -/
def execAnswerAbandoned (b : Byte) (badStop : Bool) (s : State) : Host.Outcome State Fault Refusal :=
  .next (if s.answer = none ∨ s.readsBack b badStop then s else s.takeByte b badStop)

/-- ANSWER_COMPLETE (R173). -/
def execAnswerComplete (s : State) : Host.Outcome State Fault Refusal := .next s.completeAnswer

/-! ### The meanings of the frames -/

/-- POLL (R137). -/
def execPoll (station : Byte) (payload : List Byte) (s : State) : Host.Outcome State Fault Refusal :=
  .next (s.takeFrame DownKind.poll.code station payload)

/-- WRITE (R46). -/
def execWrite (station : Byte) (payload : List Byte) (s : State) : Host.Outcome State Fault Refusal :=
  .next (s.takeFrame DownKind.write.code station payload)

/-- READ_FORM (R141). -/
def execReadForm (station : Byte) (payload : List Byte) (s : State) : Host.Outcome State Fault Refusal :=
  .next (s.takeFrame DownKind.readForm.code station payload)

/-- STATUS (R181). -/
def execStatus (station : Byte) (payload : List Byte) (s : State) : Host.Outcome State Fault Refusal :=
  .next (s.takeFrame DownKind.status.code station payload)

/-- STATION_SETUP (R183). -/
def execStationSetup (station : Byte) (payload : List Byte) (s : State) : Host.Outcome State Fault Refusal :=
  .next (s.takeFrame DownKind.stationSetup.code station payload)

/-- STATION_READ (R182). -/
def execStationRead (station : Byte) (payload : List Byte) (s : State) : Host.Outcome State Fault Refusal :=
  .next (s.takeFrame DownKind.stationRead.code station payload)

/-- CLASS_SET (R184). -/
def execClassSet (station : Byte) (payload : List Byte) (s : State) : Host.Outcome State Fault Refusal :=
  .next (s.takeFrame DownKind.classSet.code station payload)

/-- KEYMAP_SET (R185). -/
def execKeymapSet (station : Byte) (payload : List Byte) (s : State) : Host.Outcome State Fault Refusal :=
  .next (s.takeFrame DownKind.keymapSet.code station payload)

/-- ATTENTION_READ (R187). -/
def execAttentionRead (station : Byte) (payload : List Byte) (s : State) : Host.Outcome State Fault Refusal :=
  .next (s.takeFrame DownKind.attentionRead.code station payload)

/-- ATTENTION_CLEAR (R187). -/
def execAttentionClear (station : Byte) (payload : List Byte) (s : State) : Host.Outcome State Fault Refusal :=
  .next (s.takeFrame DownKind.attentionClear.code station payload)

/-- ATTENTION_MASK (R188). -/
def execAttentionMask (station : Byte) (payload : List Byte) (s : State) : Host.Outcome State Fault Refusal :=
  .next (s.takeFrame DownKind.attentionMask.code station payload)

/-- COUNTERS_READ (R189). -/
def execCountersRead (station : Byte) (payload : List Byte) (s : State) : Host.Outcome State Fault Refusal :=
  .next (s.takeFrame DownKind.countersRead.code station payload)

/-- BROADCAST_MESSAGE (R190). -/
def execBroadcastMessage (station : Byte) (payload : List Byte) (s : State) : Host.Outcome State Fault Refusal :=
  .next (s.takeFrame DownKind.broadcastMessage.code station payload)

/-- RESTART (R179). -/
def execRestart (station : Byte) (payload : List Byte) (s : State) : Host.Outcome State Fault Refusal :=
  .next (s.takeFrame DownKind.restart.code station payload)

/-- DIRECTORY_READ (R191). -/
def execDirectoryRead (station : Byte) (payload : List Byte) (s : State) : Host.Outcome State Fault Refusal :=
  .next (s.takeFrame DownKind.directoryRead.code station payload)

/-- LOAD_OPEN (R156). -/
def execLoadOpen (station : Byte) (payload : List Byte) (s : State) : Host.Outcome State Fault Refusal :=
  .next (s.takeFrame DownKind.loadOpen.code station payload)

/-- LOAD_DATA (R157). -/
def execLoadData (station : Byte) (payload : List Byte) (s : State) : Host.Outcome State Fault Refusal :=
  .next (s.takeFrame DownKind.loadData.code station payload)

/-- LOAD_CLOSE (R159). -/
def execLoadClose (station : Byte) (payload : List Byte) (s : State) : Host.Outcome State Fault Refusal :=
  .next (s.takeFrame DownKind.loadClose.code station payload)

/-- LOAD_ABANDON (R161). -/
def execLoadAbandon (station : Byte) (payload : List Byte) (s : State) : Host.Outcome State Fault Refusal :=
  .next (s.takeFrame DownKind.loadAbandon.code station payload)

/-- ERASE_SLOTS (R162). -/
def execEraseSlots (station : Byte) (payload : List Byte) (s : State) : Host.Outcome State Fault Refusal :=
  .next (s.takeFrame DownKind.eraseSlots.code station payload)

/-- PROTECT (R164). -/
def execProtect (station : Byte) (payload : List Byte) (s : State) : Host.Outcome State Fault Refusal :=
  .next (s.takeFrame DownKind.protect.code station payload)

end Sys2Proof.Machine
end

