-- ==== Sys2Proof/Machine/Dispatch.lean ====
section
/-! DEFINITION. The meaning of every command, one arm each. -/

namespace Sys2Proof.Machine

def exec (i : Instr) (s : State) : Host.Outcome State Fault Refusal :=
  match i with
  | .powerOnReset unitStraps rateStraps => Sys2Proof.Machine.execPowerOnReset unitStraps rateStraps s
  | .mark => Sys2Proof.Machine.execMark s
  | .quietTimerExpiry => Sys2Proof.Machine.execQuietTimerExpiry s
  | .frameAbort => Sys2Proof.Machine.execFrameAbort s
  | .frameGapTimeout => Sys2Proof.Machine.execFrameGapTimeout s
  | .checkFail station => Sys2Proof.Machine.execCheckFail station s
  | .unknownKind station kind payload => Sys2Proof.Machine.execUnknownKind station kind payload s
  | .answerSendStart => Sys2Proof.Machine.execAnswerSendStart s
  | .answerAbandoned byte badStop => Sys2Proof.Machine.execAnswerAbandoned byte badStop s
  | .answerComplete => Sys2Proof.Machine.execAnswerComplete s
  | .poll station payload => Sys2Proof.Machine.execPoll station payload s
  | .write station payload => Sys2Proof.Machine.execWrite station payload s
  | .readForm station payload => Sys2Proof.Machine.execReadForm station payload s
  | .status station payload => Sys2Proof.Machine.execStatus station payload s
  | .stationSetup station payload => Sys2Proof.Machine.execStationSetup station payload s
  | .stationRead station payload => Sys2Proof.Machine.execStationRead station payload s
  | .classSet station payload => Sys2Proof.Machine.execClassSet station payload s
  | .keymapSet station payload => Sys2Proof.Machine.execKeymapSet station payload s
  | .attentionRead station payload => Sys2Proof.Machine.execAttentionRead station payload s
  | .attentionClear station payload => Sys2Proof.Machine.execAttentionClear station payload s
  | .attentionMask station payload => Sys2Proof.Machine.execAttentionMask station payload s
  | .countersRead station payload => Sys2Proof.Machine.execCountersRead station payload s
  | .broadcastMessage station payload => Sys2Proof.Machine.execBroadcastMessage station payload s
  | .restart station payload => Sys2Proof.Machine.execRestart station payload s
  | .directoryRead station payload => Sys2Proof.Machine.execDirectoryRead station payload s
  | .loadOpen station payload => Sys2Proof.Machine.execLoadOpen station payload s
  | .loadData station payload => Sys2Proof.Machine.execLoadData station payload s
  | .loadClose station payload => Sys2Proof.Machine.execLoadClose station payload s
  | .loadAbandon station payload => Sys2Proof.Machine.execLoadAbandon station payload s
  | .eraseSlots station payload => Sys2Proof.Machine.execEraseSlots station payload s
  | .protect station payload => Sys2Proof.Machine.execProtect station payload s
  | .startUpScanComplete => Sys2Proof.Machine.execStartUpScanComplete s
  | .rowProgramComplete success => Sys2Proof.Machine.execRowProgramComplete success s
  | .slotEraseComplete success => Sys2Proof.Machine.execSlotEraseComplete success s
  | .controlUpdateComplete success => Sys2Proof.Machine.execControlUpdateComplete success s
  | .keyDown station code time => Sys2Proof.Machine.execKeyDown station code time s
  | .keyUp station code time => Sys2Proof.Machine.execKeyUp station code time s
  | .scanch station char => Sys2Proof.Machine.execScanch station char s
  | .pause station => Sys2Proof.Machine.execPause station s
  | .resume station => Sys2Proof.Machine.execResume station s
  | .present station => Sys2Proof.Machine.execPresent station s
  | .linkByteTimeout station => Sys2Proof.Machine.execLinkByteTimeout station s
  | .silenceTimerExpiry station => Sys2Proof.Machine.execSilenceTimerExpiry station s
  | .repeatTimerExpiry station => Sys2Proof.Machine.execRepeatTimerExpiry station s
  | .gapTimerExpiry station => Sys2Proof.Machine.execGapTimerExpiry station s
  | .probeTimerExpiry station => Sys2Proof.Machine.execProbeTimerExpiry station s
  | .startMessage station => Sys2Proof.Machine.execStartMessage station s
  | .messageComplete station => Sys2Proof.Machine.execMessageComplete station s
  | .frameForOtherUnit => Sys2Proof.Machine.execFrameForOtherUnit s
  | .hostLineByte byte badStop => Sys2Proof.Machine.execHostLineByte byte badStop s
  | .linkByte station byte parityOk time => Sys2Proof.Machine.execLinkByte station byte parityOk time s

end Sys2Proof.Machine
end

