-- ==== Sys2Proof/Machine/Ticks.lean ====
section
/-! DEFINITION. The passing of one millisecond, which is what a step on an empty queue is (log 5). -/

namespace Sys2Proof.Machine

/-- The timers of a station: R26, R42, R34, R35, and R193's between two bytes of a terminal message. -/
inductive Timer where | silence | probe | rep | gap | message
deriving DecidableEq, Repr

/-- What is left of a running timer, in milliseconds. -/
def Station.timeLeft (st : Station) : Timer → Option Nat
  | .silence => st.dr.silence
  | .probe => st.dr.probe
  | .rep => st.rep.map Repeat.left
  | .gap => st.scan.map Scan.gapLeft
  | .message => st.dr.rx.map Prod.snd

/-- Every running timer of a station counts one millisecond. -/
def Station.countDown (st : Station) : Station :=
  { st with
      rep := st.rep.map fun r => { r with left := r.left - 1 }
      scan := st.scan.map fun sc => { sc with gapLeft := sc.gapLeft - 1 }
      dr := { st.dr with silence := st.dr.silence.map (· - 1), probe := st.dr.probe.map (· - 1)
                         rx := st.dr.rx.map fun r => (r.1, r.2 - 1) } }

/-- A timer of a station runs out. -/
def State.expire (s : State) (n : StationIx) : Timer → State
  | .silence => s.silenceExpiry n
  | .probe => s.onStation n Station.probeExpiry
  | .rep => s.repeatExpiry n
  | .gap => s.closeScan n
  | .message => s.onStation n Station.dropRx

/-- An expiry that is due is taken, unless one taken before it in the same millisecond stopped or reloaded its timer. -/
def State.expireDue (s : State) (e : StationIx × Timer) : State :=
  if (s.station e.1).timeLeft e.2 = some 0 then s.expire e.1 e.2 else s

/-- The timers that have run out. -/
def State.due (s : State) : List (StationIx × Timer) :=
  ((List.finRange 12).flatMap fun n =>
    [(n, Timer.silence), (n, .probe), (n, .rep), (n, .gap), (n, .message)]).filter fun e =>
      (s.station e.1).timeLeft e.2 == some 0

/-- A list in a free order: each element goes to a free place among those after it (R26, R34, R117: either may be
taken first; log 6). -/
def inFreeOrder : Nat → List (StationIx × Timer) → List (StationIx × Timer)
  | _, [] => []
  | k, e :: es => (inFreeOrder (k + 1) es).insertIdx (Config.tieBreak k % (es.length + 1)) e

/-- The expiries that are due are taken, one after another. -/
def State.takeExpiries (s : State) : State :=
  (inFreeOrder s.freeCount s.due).foldl State.expireDue { s with freeCount := s.freeCount + s.due.length }

/-- R167: one millisecond of quiet, unless an answer is being sent. -/
def State.countQuiet (s : State) : State :=
  if s.hostDriverEnabled then s else { s with quietLeft := s.quietLeft - 1 }

/-- R169: one millisecond without a byte. -/
def State.countGap (s : State) : State :=
  match s.receiver with
  | .hunting => s
  | .inFrame bytes left => if left ≤ 1 then s.gapTimeout else { s with receiver := .inFrame bytes (left - 1) }

/-- One millisecond at every station's timers. -/
def State.countStations (s : State) : State := { s with stations := s.stations.map Station.countDown }

/-- One millisecond passes. -/
def State.tick (s : State) : State := s.countQuiet.countGap.countStations.takeExpiries

end Sys2Proof.Machine
end

