-- ==== Sys2Proof/Safety.lean ====
section
/-! DEFINITION. What a sound state of the 2412 is: the bounds and the agreements between its parts that the manual's
rules set, block by block. Each is decidable, so that a state can be checked against it. -/

namespace Sys2Proof.Machine

/-! ### Sheets (R1, R4, R5, R9, R12, R19) -/

/-- R5: the fields of a sheet: inside it, of length 1..255, numbered 1..160, in address order without overlap, no number
twice. -/
abbrev Sheet.FieldsSound (sh : Sheet) : Prop :=
  (∀ f ∈ sh.fields, (1 ≤ f.number ∧ f.number ≤ 160) ∧ (1 ≤ f.length ∧ f.length ≤ 255) ∧
    f.start + f.length ≤ sh.size) ∧
  sh.fields.Pairwise fun f g => f.start + f.length ≤ g.start ∧ f.number ≠ g.number

/-- R1: the cells of a sheet in canonical form, all inside it and printable. -/
abbrev Sheet.CellsSound (sh : Sheet) : Prop :=
  Memory.wf cellDefault sh.cells ∧ ∀ c ∈ sh.cells, c.1 < sh.size ∧ printable c.2 = true

/-- R1, R5, R9, R12, R19: a sound sheet. The register names a field that holds the cursor. -/
abbrev Sheet.Sound (sh : Sheet) : Prop :=
  (24 ≤ sh.rows ∧ sh.rows ≤ 72) ∧ sh.header ≤ 8 ∧ sh.cursor < sh.size ∧
  (sh.header ≤ sh.top ∧ sh.top ≤ sh.rows - 24 + sh.header) ∧
  sh.CellsSound ∧ sh.FieldsSound ∧ (∀ b ∈ sh.band, b.valid sh.rows sh.header = true) ∧
  ∀ k ∈ sh.edited, ∃ f ∈ sh.fields, f.number = k ∧ f.covers sh.cursor = true

/-- Every station's sheet is sound. -/
abbrev State.SheetsSound (s : State) : Prop := ∀ n, (s.station n).sheet.Sound

/-! ### Stations (R23 to R42, R86, R114) -/

/-- R32: a profile holds values of its ranges. -/
abbrev Profile.Sound (p : Profile) : Prop :=
  (150 ≤ p.repeatDelay ∧ p.repeatDelay ≤ 1000) ∧ (30 ≤ p.repeatPeriod ∧ p.repeatPeriod ≤ 500) ∧ p.chatter ≤ 30 ∧
    (10 ≤ p.gap ∧ p.gap ≤ 250) ∧ p.releaseCode.toNat ≤ 0xEF

/-- R86: the type-ahead queue holds at most 32 actions, and none in HELD, in ENTRY with no scan open, or while the link
is not ATTACHED. -/
abbrev Station.TypeAheadSound (st : Station) : Prop :=
  st.typeAhead.length ≤ 32 ∧
    ((st.input = .held ∨ (st.input = .entry ∧ st.scan = none) ∨ st.link ≠ .attached) → st.typeAhead = [])

/-- R80, R114: a scan is open only in ENTRY on an ATTACHED link, and holds 1..64 characters. -/
abbrev Station.ScanSound (st : Station) : Prop :=
  ∀ sc ∈ st.scan, st.input = .entry ∧ st.link = .attached ∧ 1 ≤ sc.buffer.length ∧ sc.buffer.length ≤ 64

/-- R26, R27, R36, R39 to R42: the display refresh unit by the link state. -/
abbrev Station.RefreshSound (st : Station) : Prop :=
  (st.link = .attached ↔ st.dr.silence.isSome = true) ∧
  (st.link ≠ .attached → st.dr.stale = Vector.replicate 25 false ∧ st.dr.cursorStale = false ∧ st.dr.paused = false ∧
    st.dr.alarm = false ∧ st.rep = none ∧ (st.dr.inFlight = none ∨ st.dr.inFlight = some .probe)) ∧
  (st.link ≠ .disabled → st.dr.probe.isSome = true ∨ st.dr.inFlight.isSome = true)

/-- R29, R30: a station out of service is at its reset values, but for its profile and its counters. -/
abbrev Station.DisabledSound (st : Station) : Prop :=
  st.link = .disabled → st =
    { Station.atReset with
        profile := st.profile, keysDiscarded := st.keysDiscarded, scanRejects := st.scanRejects }

/-- R23 to R42, R86, R114: a sound station; a station in HELD has an error code (R31). -/
abbrev Station.Sound (st : Station) : Prop :=
  st.profile.Sound ∧ st.TypeAheadSound ∧ st.ScanSound ∧ st.RefreshSound ∧ st.DisabledSound ∧
    (st.input = .held → st.error.isSome = true)

/-- Every station is sound. -/
abbrev State.StationsSound (s : State) : Prop := ∀ n, (s.station n).Sound

/-! ### Releases (R129 to R139) -/

/-- R129, R132: the staging count is the total size of the queued records and at most 8192. -/
abbrev ReleaseQueue.StagingSound (q : ReleaseQueue) : Prop :=
  q.staging = (q.queue.map Record.size).sum ∧ q.staging ≤ 8192 ∧
    ∀ r ∈ q.queue, r.size = recordSize r.entries ∧ r.size ≤ 2048

/-- R133: a station has at most one record or entry, a record exactly in RELEASED and an entry exactly in ROOMWAIT. -/
abbrev State.OwnersSound (s : State) : Prop :=
  s.rq.queue.Pairwise (fun r q => r.station ≠ q.station) ∧ s.rq.rooms.Pairwise (fun e d => e.station ≠ d.station) ∧
  ∀ n, ((s.station n).input = .released ↔ ∃ r ∈ s.rq.queue, r.station = n) ∧
    ((s.station n).input = .roomWait ↔ ∃ e ∈ s.rq.rooms, e.station = n)

/-- R130, R135: an entry of the room-wait list has the size its record will have, and the head does not fit. -/
abbrev State.RoomsSound (s : State) : Prop :=
  (∀ e ∈ s.rq.rooms, e.size = recordSize ((s.station e.station).sheet.releaseEntries e.full) ∧ e.size ≤ 2048) ∧
  ∀ e ∈ s.rq.rooms.head?, s.rq.fits e.size = false

/-- R137 to R139: a RELEASE answer in flight carries a record that is still queued. -/
abbrev State.HandoverSound (s : State) : Prop :=
  ∀ a ∈ s.answer, a.kind = .release →
    ∃ r ∈ s.rq.queue, a.station = stationByte r.station ∧ a.payload = r.bytes

/-- R129 to R139: sound releases. -/
abbrev State.ReleasesSound (s : State) : Prop :=
  s.rq.StagingSound ∧ s.OwnersSound ∧ s.RoomsSound ∧ s.HandoverSound

/-! ### The template store (R143 to R164) -/

/-- R145, R146: the slot table and the directory agree. -/
abbrev Store.DirectorySound (st : Store) : Prop :=
  st.directory.Pairwise (fun d e => d.first + d.count ≤ e.first ∧ d.form ≠ e.form) ∧
  (∀ e ∈ st.directory, (1 ≤ e.count ∧ e.count ≤ 8) ∧ e.first + e.count ≤ 64 ∧
    (1 ≤ e.form.toNat ∧ e.form.toNat ≤ 250) ∧ (16 ≤ e.length ∧ e.length ≤ 1984 * e.count)) ∧
  ∀ k : Fin 64, (st.slots[k] = .head ↔ ∃ e ∈ st.directory, e.first = k.1) ∧
    (st.slots[k] = .tail ↔ ∃ e ∈ st.directory, e.first < k.1 ∧ k.1 < e.first + e.count)

/-- R155: the slots of the session are exactly the LOADING slots; its begun slots are among them; its form is not in the
directory. -/
abbrev Store.SessionSound (st : Store) : Prop :=
  (∀ k : Fin 64, st.slots[k] = .loading ↔ ∃ ss ∈ st.session, ss.holds k.1 = true) ∧
  ∀ ss ∈ st.session, (1 ≤ ss.count ∧ ss.count ≤ 8) ∧ ss.first + ss.count ≤ 64 ∧
    (1 ≤ ss.form.toNat ∧ ss.form.toNat ≤ 250) ∧ ss.expected ≤ ss.capacity ∧
    (∀ k ∈ ss.begun, ss.holds k = true) ∧ st.lookup ss.form = none ∧
    (ss.abandoning = true ∨ ss.closing.isSome = true → st.rowInFlight = true) ∧
    (ss.failed = true → st.rowInFlight = false) ∧
    (ss.closing = none → st.rowInFlight = true → ss.expected + ss.frameRows ≤ ss.capacity) ∧
    ∀ length ∈ ss.closing, 16 ≤ length ∧ length ≤ 1984 * ss.count

/-- The row whose program is in flight. -/
def Store.rowNow (st : Store) : Option RowJob :=
  match st.op with
  | some (.rowProgram job) => some job
  | _ => none

/-- The slot whose erase is in flight. -/
def Store.eraseNow (st : Store) : Option Nat :=
  match st.op with
  | some (.slotErase k) => some k
  | _ => none

/-- The group whose protect flag is being turned on. -/
def Store.protectNow (st : Store) : Option (Fin 16) :=
  match st.op with
  | some (.controlUpdate g true) => some g
  | _ => none

/-- R148, R151: STARTING is the start-up scan; a row program in flight writes a row of a begun slot of the session, and
those waiting behind it rows of the session; a slot erase in flight, and those waiting behind it, are of DIRTY slots;
nothing waits behind any other operation. -/
abbrev Store.WorkSound (st : Store) : Prop :=
  (st.phase = .starting ↔ st.op = some .startUpScan) ∧
  (st.phase = .starting → st.slots = Vector.replicate 64 .unknown ∧ st.directory = [] ∧ st.session = none) ∧
  (st.phase = .running → ∀ k : Fin 64, st.slots[k] ≠ .unknown) ∧
  (∀ job ∈ st.rowNow, (∃ ss ∈ st.session, job.slot ∈ ss.begun ∧ ∀ j ∈ st.rowsWaiting, ss.holds j.slot = true) ∧
    ∀ j ∈ job :: st.rowsWaiting, j.bytes.length = 64 ∧ j.row < 32) ∧
  (∀ k ∈ st.eraseNow, st.session = none ∧ (k :: st.erasesWaiting).Pairwise (· < ·) ∧ ∀ j ∈ k :: st.erasesWaiting, st.slot j = .dirty) ∧
  (st.rowNow = none → st.rowsWaiting = []) ∧ (st.eraseNow = none → st.erasesWaiting = [])

/-- R147: no slot in a protected group is being loaded, programmed or erased. -/
abbrev Store.ProtectSound (st : Store) : Prop :=
  (∀ k : Fin 64, st.slots[k] = .loading → st.slotProtected k.1 = false) ∧
  (∀ job ∈ st.rowNow, st.slotProtected job.slot = false) ∧
  (∀ k ∈ st.eraseNow, ∀ j ∈ k :: st.erasesWaiting, st.slotProtected j = false) ∧
  ∀ g ∈ st.protectNow, ∀ k : Fin 64, k.1 / 4 = g.1 → st.slots[k] ≠ .loading

/-- R143, R145: the memory in canonical form within its 131072 bytes; an ERASED slot, and a slot of the session in which
no row program was begun, reads 0xFF throughout. -/
abbrev Store.MemorySound (st : Store) : Prop :=
  Memory.wf storeDefault st.mem ∧ (∀ c ∈ st.mem, c.1 < 131072) ∧
  (∀ k : Fin 64, st.slots[k] = .erased → slotErased st.mem k.1 = true) ∧
  ∀ ss ∈ st.session, ∀ k : Fin 64, ss.holds k.1 = true → k.1 ∉ ss.begun → slotErased st.mem k.1 = true

/-- R143 to R164: a sound store. -/
abbrev Store.Sound (st : Store) : Prop :=
  st.DirectorySound ∧ st.SessionSound ∧ st.WorkSound ∧ st.ProtectSound ∧ st.MemorySound

/-! ### The key maps (R76) -/

/-- R76, R185: the key maps in canonical form, only maps 1..3 listed. -/
abbrev State.KeyMapsSound (s : State) : Prop :=
  Memory.wf mapDefault s.keyMaps ∧ ∀ c ∈ s.keyMaps, 1024 ≤ c.1 ∧ c.1 < 4096

/-! ### The host line (R167 to R173, R179) -/

/-- The frame bytes taken so far and what is left of the 20 ms, while IN FRAME. -/
def Receiver.part : Receiver → Option (List Byte × Nat)
  | .hunting => none
  | .inFrame bytes left => some (bytes, left)

/-- R167 to R173: the receiver is HUNTING while an answer is in flight; the line is not quiet while one is sent; bytes are
read back only of an answer being sent, and no more than it has; a frame being received is not yet whole and its length
field not above 2048; the unit address is 1..31. -/
abbrev State.LineSound (s : State) : Prop :=
  (1 ≤ s.unitAddr.toNat ∧ s.unitAddr.toNat ≤ 31) ∧ s.quietLeft ≤ 2 ∧
  (∀ a ∈ s.answer, s.receiver = .hunting ∧ a.unit = s.unitAddr ∧ (a.sending = true → s.quietLeft = 2) ∧
    (a.sending = false → a.readBack = 0) ∧ a.readBack ≤ a.frame.length) ∧
  ∀ p ∈ s.receiver.part, (1 ≤ p.2 ∧ p.2 ≤ 20) ∧ ∀ len ∈ lengthField p.1, len ≤ 2048 ∧ p.1.length < len + 7

/-! ### The words of the statements -/

/-- The command that is a whole frame of a kind, with its station byte and payload. -/
def DownKind.command : DownKind → Byte → List Byte → Instr
  | .poll => .poll
  | .write => .write
  | .readForm => .readForm
  | .status => .status
  | .stationSetup => .stationSetup
  | .stationRead => .stationRead
  | .classSet => .classSet
  | .keymapSet => .keymapSet
  | .attentionRead => .attentionRead
  | .attentionClear => .attentionClear
  | .attentionMask => .attentionMask
  | .countersRead => .countersRead
  | .broadcastMessage => .broadcastMessage
  | .restart => .restart
  | .directoryRead => .directoryRead
  | .loadOpen => .loadOpen
  | .loadData => .loadData
  | .loadClose => .loadClose
  | .loadAbandon => .loadAbandon
  | .eraseSlots => .eraseSlots
  | .protect => .protect

/-- R174: the station numbers a kind is sent to. -/
def DownKind.serves : DownKind → Byte → Bool
  | .poll, b => decide (b.toNat ≤ 12)
  | .write, b => decide (1 ≤ b.toNat ∧ b.toNat ≤ 12)
  | .readForm, b => decide (1 ≤ b.toNat ∧ b.toNat ≤ 12)
  | _, b => b == 0x00#8

/-- R170, section 11.1: the bytes of a down frame that its check covers, and the whole frame after its mark. -/
def frameBody (unit station kind : Byte) (payload : List Byte) : List Byte :=
  [unit, station, kind] ++ bytes2 payload.length ++ payload

def downFrame (unit station kind : Byte) (payload : List Byte) : List Byte :=
  frameBody unit station kind payload ++ bytes2 (crc (frameBody unit station kind payload)).toNat

/-- Commands one after another. -/
def runAll : List Instr → State → Host.Outcome State Fault Refusal
  | [], s => .next s
  | c :: cs, s =>
    match exec c s with
    | .next t => runAll cs t
    | .fault r => .fault r
    | .refused r => .refused r

/-- The bytes of a run arrive one by one, each with a good stop bit. -/
def bytesArrive (bytes : List Byte) : List Instr := bytes.map fun b => .hostLineByte b false

/-- A frame that arrives is dispatched to its handling: RUNNING, and no answer is being sent. -/
abbrev State.Serving (s : State) : Prop := s.store.phase = .running ∧ s.hostDriverEnabled = false

/-- R171: the state with an answer just composed to a frame: the receiver HUNTING, the quiet timer restarted by the
frame's last byte, the answer pending with the status octet of the state. -/
def State.withAnswer (s : State) (station : Byte) (kind : UpKind) (payload : List Byte) : State :=
  { s with
      receiver := .hunting, quietLeft := 2
      answer := some
        { unit := s.unitAddr, station := station, kind := kind, status := s.statusOctet, payload := payload
          restart := false, sending := false, readBack := 0 } }

/-- R177: the state with a REFUSE just composed. -/
def State.withRefusal (s : State) (station reason subcode : Byte) (detail : Nat) : State :=
  { s with refusals := s.refusals + 1 }.withAnswer station .refuse ([reason, subcode] ++ bytes2 detail)

/-- One byte of the template store. -/
def State.storeByte (s : State) (a : Nat) : Byte := Memory.read storeDefault s.store.mem a

/-- One cell of a station's sheet. -/
def State.cellAt (s : State) (n : StationIx) (a : Nat) : Byte := (s.station n).sheet.cell a

/-- What power-on reset and RESTART leave alike (section 10.7): t after a reset of s. -/
abbrev State.ResetValues (s t : State) : Prop :=
  (t.receiver = .hunting ∧ t.quietLeft = 2 ∧ t.answer = none) ∧
  (t.checkFails = 0 ∧ t.framingErrors = 0 ∧ t.refusals = 0) ∧
  (∀ n, t.station n = Station.atReset) ∧ (∀ k, classRec t.classes k = ClassRec.zero) ∧
  (∀ m plane code, plane < 4 → code < 128 → t.mapEntry m plane code = mapZero plane code) ∧
  t.rq = ⟨0, [], []⟩ ∧ (∀ i : Fin 13, t.causes[i] = 0x00#8) ∧ t.stationMask = 0x0F#8 ∧ t.ctlMask = 0x07#8 ∧
  t.store.phase = .starting ∧ t.store.op = some .startUpScan ∧ (∀ k : Fin 64, t.store.slots[k] = .unknown) ∧
  t.store.directory = [] ∧ t.store.session = none ∧ t.store.protect = s.store.protect

/-- R135: the room-wait list of s has been served in t: a first part of it was composed and queued in order, and the
head of what is left does not fit. `queue` and `staging` are what the queue held before the serving. -/
abbrev State.Served (s t : State) (queue : List Record) (staging : Nat) (rooms moved : List RoomEntry) : Prop :=
  rooms = moved ++ t.rq.rooms ∧
  t.rq.queue = queue ++ moved.map (fun e => (s.station e.station).sheet.compose e) ∧
  t.rq.staging = staging + (moved.map RoomEntry.size).sum ∧
  (∀ e ∈ t.rq.rooms.head?, t.rq.fits e.size = false) ∧
  ∀ e ∈ moved, t.station e.station = (s.station e.station).setInput .released

/-- Everything but the stations, the release queue, the receiver, the quiet timer and the answer is as it was. -/
abbrev State.SameShared (s t : State) : Prop :=
  t.unitAddr = s.unitAddr ∧ t.lineRate = s.lineRate ∧ t.checkFails = s.checkFails ∧ t.framingErrors = s.framingErrors ∧
  t.refusals = s.refusals ∧ t.classes = s.classes ∧ t.keyMaps = s.keyMaps ∧ t.store = s.store ∧ t.causes = s.causes ∧
  t.stationMask = s.stationMask ∧ t.ctlMask = s.ctlMask ∧ t.freeCount = s.freeCount ∧ t.pending = s.pending

/-- R53: how many operand bytes follow the code of a directive whose operands have a fixed size. -/
def operandBytes (code : Byte) : Option Nat :=
  match code.toNat with
  | 0x01 => some 1
  | 0x02 => some 2
  | 0x03 => some 2
  | 0x04 => some 1
  | 0x05 => some 2
  | 0x07 => some 3
  | 0x08 => some 7
  | 0x09 => some 1
  | 0x0A => some 4
  | 0x0B => some 2
  | 0x0C => some 1
  | 0x0D => some 1
  | 0x0E => some 1
  | 0x0F => some 0
  | 0x10 => some 0
  | 0x12 => some 5
  | _ => none

/-- R53: TEXT and MESSAGE, whose count byte says how many characters follow. -/
def countedCode (code : Byte) : Bool := code == 0x06#8 || code == 0x11#8

/-- R48, R53: the bytes are one whole directive, from its code through its last operand byte. -/
def wholeDirective : List Byte → Bool
  | [] => false
  | code :: rest =>
    match operandBytes code, rest with
    | some k, _ => rest.length == k
    | none, [] => false
    | none, n :: chars => countedCode code && chars.length == n.toNat

/-- R48, R53: from a directive's code to the end of the payload there are too few bytes for its operands. -/
def cutDirective (code : Byte) (rest : List Byte) : Bool :=
  match operandBytes code, rest with
  | some k, _ => decide (rest.length < k)
  | none, [] => countedCode code
  | none, n :: chars => countedCode code && decide (chars.length < n.toNat)

/-- R48: a run of whole directives that phase 1 passes: no FORM among them while a store operation is in flight. -/
abbrev State.PassesPhase1 (s : State) (directives : List (List Byte)) : Prop :=
  ∀ d ∈ directives, wholeDirective d = true ∧ (d.head? = some 0x01#8 → s.store.op = none)

/-- The payload of a STATION SETUP (section 11.2). -/
def setupPayload (n enable keyMap : Byte) (delay period : Nat) (chatter suffix gap advance code : Byte) : List Byte :=
  [n, enable, keyMap] ++ bytes2 delay ++ bytes2 period ++ [chatter, suffix, gap, advance, code]

/-- The profile a STATION SETUP carries, clamped (R32). -/
def setupProfile (enable : Bool) (keyMap : Fin 4) (delay period : Nat) (chatter suffix gap advance code : Byte) :
    Profile :=
  { enable := enable, keyMap := keyMap
    repeatDelay := if delay < 150 then 150 else if 1000 < delay then 1000 else delay
    repeatPeriod := if period < 30 then 30 else if 500 < period then 500 else period
    chatter := if 30 < chatter.toNat then 30 else chatter.toNat, suffix := suffix
    gap := if gap.toNat < 10 then 10 else if 250 < gap.toNat then 250 else gap.toNat
    advance := decide (advance ≠ 0x00#8), releaseCode := code }

/-- R26: what a message received leaves of an ATTACHED station: the silence timer loaded, no message begun (R193). -/
def Station.heard (st : Station) : Station := { st with dr := { st.dr with silence := some 2000, rx := none } }

/-- A station whose key-downs are translated in plane 0 of the fixed map 0 (R76), its chatter guard off (R74). -/
abbrev Station.KeyReady (st : Station) : Prop :=
  st.link = .attached ∧ st.profile.chatter = 0 ∧ st.chatter.suppressed = none ∧ st.shiftHolders = [] ∧
    st.altHolders = [] ∧ st.profile.keyMap = 0

/-- A station in ENTRY with no scan open, where an action is processed at once (R80). -/
abbrev Station.Processing (st : Station) : Prop := st.input = .entry ∧ st.scan = none

/-- The input states in which actions go to the type-ahead queue (R80). -/
abbrev Station.Queueing (st : Station) : Prop :=
  st.input = .locked ∨ st.input = .released ∨ st.input = .roomWait ∨ st.input = .waiting

/-- A station that a WRITE without DISCARD RELEASE reaches (R49). -/
abbrev Station.Writable (st : Station) : Prop := st.link ≠ .disabled ∧ st.input ≠ .released ∧ st.input ≠ .roomWait

/-- The stale marks of t are those of s and those of the lines for which p holds, while the link is ATTACHED (R36). -/
abbrev Refresh.Marked (dr dr' : Refresh) (attached : Bool) (p : Nat → Bool) : Prop :=
  ∀ i : Fin 25, dr'.stale[i] = (dr.stale[i] || (attached && p i.1))

/-- The display lines 0..23 that show one of the cells start..start+n-1 (R21, R36). -/
def Sheet.showsCells (sh : Sheet) (start n line : Nat) : Bool :=
  decide (line < 24 ∧ ∃ i < n, (start + i) / 80 = sh.rowOnLine line)

end Sys2Proof.Machine
end

