-- ==== Sys2Proof/Certificates/Slice0/Obligations.lean ====
section
/-! DEFINITION. The statements for the provers. Each docstring names the rules a statement rests on; "log <n>" is
notes/assumptions/<n>.md. -/

open Sys2Proof Sys2Proof.Machine

/-! ### The step and the queue of commands -/

/-- A step takes the command at the front of the queue and runs it on the state with the queue's rest. -/
def Obligations.StepRunsFrontCommand : Prop :=
  ∀ (c : Instr) (rest : List Instr) (s : State), s.pending = c :: rest → step s = exec c { s with pending := rest }

/-- No command changes the queue of waiting commands: it is the model's own, and only a step takes from it. -/
def Obligations.CommandsKeepWaitingQueue : Prop :=
  ∀ (c : Instr) (s t : State), exec c s = .next t → t.pending = s.pending

/-- One millisecond passes at a step on an empty queue (the model's choice, log 5): the timers that have more than a
millisecond left count down and nothing else changes, but that a quiet line comes nearer to 2 ms of quiet (R167). A
silence timer with one millisecond left runs out in that step: the link detaches and DETACHED is raised (R26). -/
def Obligations.EmptyQueueStepPassesOneMillisecond : Prop :=
  ∀ s : State, s.pending = [] → s.receiver = .hunting → s.hostDriverEnabled = false →
    ((∀ n k, (s.station n).timeLeft k ≠ some 0 ∧ (s.station n).timeLeft k ≠ some 1) →
      step s = .next { s with quietLeft := s.quietLeft - 1, stations := s.stations.map Station.countDown }) ∧
    ∀ n, (s.station n).link = .attached → (s.station n).dr.silence = some 1 →
      (∀ m k, (m ≠ n ∨ k ≠ .silence) → (s.station m).timeLeft k ≠ some 0 ∧ (s.station m).timeLeft k ≠ some 1) →
      ∃ t, step s = .next t ∧
        t = { s with
                quietLeft := s.quietLeft - 1, stations := t.stations, freeCount := t.freeCount
                causes := s.causes.set (causeIx n).1 (s.causes[causeIx n] ||| 0x02#8) (causeIx n).2 } ∧
        (t.station n).link = .detached ∧ (t.station n).typeAhead = [] ∧
        t.station n =
          { s.station n with
              link := .detached, typeAhead := [], shiftHolders := [], altHolders := [], chatter := ⟨none, none⟩
              rep := none, scan := none, dr := (t.station n).dr } ∧
        (t.station n).dr.silence = none ∧ ∀ m, m ≠ n → t.station m = (s.station m).countDown

/-! ### Reset (R2, R23 to R44, R86, R94, R132, R148, R152, R178, R179, R186) -/

/-- The state after reset is sound in every part. -/
def Obligations.ResetStateIsSound : Prop :=
  State.reset.SheetsSound ∧ State.reset.StationsSound ∧ State.reset.ReleasesSound ∧ State.reset.store.Sound ∧
    State.reset.KeyMapsSound ∧ State.reset.LineSound

/-- Power-on reset, and RESTART when its ACCEPT completes, put every block at the values its rules give (section 10.7);
power-on reset reads the straps, a RESTART keeps the unit address and the line rate. The RESTART frame itself is answered
ACCEPT and changes nothing (R179). -/
def Obligations.ResetGivesEveryBlockItsValues : Prop :=
  (∀ (s : State) (unit : BitVec 5) (rate : BitVec 2), ∃ t, exec (.powerOnReset unit rate) s = .next t ∧
    s.ResetValues t ∧ t.unitAddr.toNat = (if unit = 0 then 1 else unit.toNat) ∧ t.lineRate = rate) ∧
  (∀ s : State, s.Serving → exec (.restart 0x00#8 []) s = .next
    { s with
        receiver := .hunting, quietLeft := 2
        answer := some
          { unit := s.unitAddr, station := 0x00#8, kind := .accept, status := s.statusOctet, payload := []
            restart := true, sending := false, readBack := 0 } }) ∧
  ∀ (s : State) (a : Answer), s.answer = some a → a.sending = true → a.kind = .accept → a.restart = true →
    ∃ t, exec .answerComplete s = .next t ∧ s.ResetValues t ∧ t.unitAddr = s.unitAddr ∧ t.lineRate = s.lineRate

/-- R143, R152: a reset changes no byte of the template store outside the row or the slot whose operation it abandons,
and leaves an abandoned header row without its mark. -/
def Obligations.ResetKeepsTemplateMemory : Prop :=
  ∀ (s t : State) (unit : BitVec 5) (rate : BitVec 2), s.store.WorkSound → s.store.MemorySound →
    (exec (.powerOnReset unit rate) s = .next t ∨
      (∃ a, s.answer = some a ∧ a.sending = true ∧ a.kind = .accept ∧ a.restart = true) ∧
        exec .answerComplete s = .next t) →
    (∀ a, (∀ job ∈ s.store.rowNow, a < rowAddress job.slot job.row ∨ rowAddress job.slot job.row + 64 ≤ a) →
      (∀ k ∈ s.store.eraseNow, inSlot k a = false) → t.storeByte a = s.storeByte a) ∧
    ∀ job ∈ s.store.rowNow, job.row = 0 → t.storeByte (rowAddress job.slot 0 + 63) ≠ 0xA5#8

/-! ### Receiving frames (R167 to R170) -/

/-- R167: while HUNTING, 0xC3 is a mark after 2 ms of quiet and is discarded otherwise; either restarts the quiet timer.
The quiet timer running out makes the line quiet, whatever it had left when that comes as a command (the model's choice,
log 4). -/
def Obligations.MarkNeedsQuiet : Prop :=
  ∀ s : State, s.receiver = .hunting → s.hostDriverEnabled = false →
    (s.quietLeft = 0 → exec .mark s = .next { s with answer := none, quietLeft := 2, receiver := .inFrame [] 20 }) ∧
    (s.quietLeft ≠ 0 → exec .mark s = .next { s with answer := none, quietLeft := 2 }) ∧
    exec .quietTimerExpiry s = .next { s with quietLeft := 0 }

/-- R167 to R169: bytes while HUNTING are discarded, those arriving from the line as well as those that lose an answer;
while IN FRAME they join the frame; a bad stop bit, a length above 2048 and 20 ms without a byte abort the frame and count
in FRAMING ERRORS, with no answer. After the 20 ms the line has been quiet for longer than a mark wants. The expiry counts
whatever was left of the 20 ms when it comes as a command (the model's choice, log 4). A byte that is the one being sent is
none of these (R172). -/
def Obligations.FrameBytesTakenOrAborted : Prop :=
  ∀ (s : State) (b : Byte), (∀ a ∈ s.answer, a.sending = true → a.frame[a.readBack]? ≠ some b) →
    (s.receiver = .hunting → (b ≠ 0xC3#8 → exec (.hostLineByte b false) s = .next { s with answer := none, quietLeft := 2 }) ∧
      exec (.hostLineByte b true) s = .next { s with answer := none, quietLeft := 2 }) ∧
    ∀ bytes left, s.receiver = .inFrame bytes left →
      (bytes.length < 4 →
        exec (.hostLineByte b false) s =
          .next { s with answer := none, quietLeft := 2, receiver := .inFrame (bytes ++ [b]) 20 }) ∧
      (∀ unit station kind hi, bytes = [unit, station, kind, hi] → 2048 < number [hi, b] →
        exec (.hostLineByte b false) s =
          .next { s with answer := none, quietLeft := 2, receiver := .hunting, framingErrors := s.framingErrors + 1 }) ∧
      exec (.hostLineByte b true) s =
        .next { s with answer := none, quietLeft := 2, receiver := .hunting, framingErrors := s.framingErrors + 1 } ∧
      exec .frameAbort s =
        .next { s with answer := none, quietLeft := 2, receiver := .hunting, framingErrors := s.framingErrors + 1 } ∧
      exec .frameGapTimeout s =
        .next { s with receiver := .hunting, quietLeft := 0, framingErrors := s.framingErrors + 1 } ∧
      (s.hostDriverEnabled = false → runAll [.frameGapTimeout, .mark] s =
        .next { s with
          answer := none, quietLeft := 2, receiver := .inFrame [] 20, framingErrors := s.framingErrors + 1 })

/-- R167, R168, R170: a mark on a quiet line and then the bytes of a down frame for this unit, with a good check, leave
exactly the state that the whole frame given as one command leaves, for every kind byte, station byte and payload. That a
frame command stands for the whole frame is the model's choice (log 7). -/
def Obligations.FrameArrivesByteByByte : Prop :=
  ∀ (s : State) (station : Byte) (payload : List Byte), s.receiver = .hunting → s.hostDriverEnabled = false →
    s.quietLeft = 0 → payload.length ≤ 2048 →
    (∀ kind, runAll (.mark :: bytesArrive (downFrame s.unitAddr station kind payload)) s =
      exec (.unknownKind station kind payload) s) ∧
    ∀ k : DownKind, runAll (.mark :: bytesArrive (downFrame s.unitAddr station k.code payload)) s =
      exec (k.command station payload) s

/-- R170, R171: a check failure is counted in CHECK FAILS and answered CHECKFAIL with the station byte as received and
an empty payload; a frame for another unit is neither counted nor answered; nothing else changes. Arriving byte by byte, a
frame for another unit, whatever its check, and a frame for this unit whose check does not match are these. That one
command stands for the whole frame is the model's choice (log 7). -/
def Obligations.ForeignAndDamagedFrames : Prop :=
  (∀ s : State,
    (s.hostDriverEnabled = false → ∀ station, exec (.checkFail station) s =
      .next ({ s with checkFails := s.checkFails + 1 }.withAnswer station .checkFail [])) ∧
    exec .frameForOtherUnit s = .next { s with answer := none, quietLeft := 2, receiver := .hunting }) ∧
  ∀ (s : State) (unit station kind c d : Byte) (payload : List Byte), s.receiver = .hunting →
    s.hostDriverEnabled = false → s.quietLeft = 0 → payload.length ≤ 2048 →
    (unit ≠ s.unitAddr →
      runAll (.mark :: bytesArrive (frameBody unit station kind payload ++ [c, d])) s = exec .frameForOtherUnit s) ∧
    (unit = s.unitAddr → [c, d] ≠ bytes2 (crc (frameBody unit station kind payload)).toNat →
      runAll (.mark :: bytesArrive (frameBody unit station kind payload ++ [c, d])) s = exec (.checkFail station) s)

/-! ### Dispatch, answers and the status octet (R171 to R177, R192) -/

/-- R174: while STARTING every kind but STATUS is refused with STARTING; then a kind byte that is no down kind's code is
refused with UNKNOWN KIND; then a station the kind is not sent to with BAD STATION. A refused frame changes nothing but
REFUSALS (R177). -/
def Obligations.DispatchRefusesInOrder : Prop :=
  ∀ (s : State) (station : Byte) (payload : List Byte), s.hostDriverEnabled = false → payload.length ≤ 2048 →
    (s.store.phase = .starting →
      (∀ kind, kind ≠ 0x10#8 →
        exec (.unknownKind station kind payload) s = .next (s.withRefusal station 0x04#8 0x00#8 0)) ∧
      ∀ k : DownKind, k ≠ .status →
        exec (k.command station payload) s = .next (s.withRefusal station 0x04#8 0x00#8 0)) ∧
    (s.store.phase = .running → ∀ kind, (∀ k : DownKind, k.code ≠ kind) →
      exec (.unknownKind station kind payload) s = .next (s.withRefusal station 0x01#8 0x00#8 kind.toNat)) ∧
    ∀ k : DownKind, s.store.phase = .running ∨ k = .status → k.serves station = false →
      exec (k.command station payload) s = .next (s.withRefusal station 0x02#8 0x00#8 station.toNat)

/-- R176, R186, R192: the five conditions of the status octet in their places, and nothing in the others. -/
def Obligations.StatusOctetShowsConditions : Prop :=
  ∀ s : State,
    (s.statusOctet.getLsbD 0 = true ↔ s.store.phase = .starting) ∧
    (s.statusOctet.getLsbD 1 = true ↔
      s.causes[0] &&& ~~~s.ctlMask ≠ 0x00#8 ∨ ∃ n : StationIx, s.causes[causeIx n] &&& ~~~s.stationMask ≠ 0x00#8) ∧
    (s.statusOctet.getLsbD 2 = true ↔ s.rq.queue ≠ []) ∧
    (s.statusOctet.getLsbD 3 = true ↔ s.store.op ≠ none) ∧
    (s.statusOctet.getLsbD 4 = true ↔ s.store.session ≠ none) ∧
    ∀ i, 5 ≤ i → s.statusOctet.getLsbD i = false

/-- R171 to R173: a pending answer begins to be sent, its contents unchanged and HDE driven; its own bytes, read back one
by one as they are sent, do not abandon it; an answer that is neither a RELEASE nor the ACCEPT of a RESTART completes with
no further effect, however many of its bytes were read back (the model's choice, log 33). -/
def Obligations.AnswerIsSentAndCompletes : Prop :=
  ∀ (s : State) (a : Answer), s.answer = some a →
    (a.sending = false →
      exec .answerSendStart s = .next { s with answer := some { a with sending := true }, quietLeft := 2 } ∧
      { s with answer := some { a with sending := true }, quietLeft := 2 }.hostDriverEnabled = true ∧
      (a.readBack = 0 → runAll (.answerSendStart :: bytesArrive a.frame) s =
        .next { s with answer := some { a with sending := true, readBack := a.frame.length }, quietLeft := 2 })) ∧
    (a.sending = true → a.kind ≠ .release → a.restart = false →
      exec .answerComplete s = .next { s with answer := none, quietLeft := 2 })

/-- R172: a byte that arrives while an answer is pending, or that differs from the byte being sent or has a bad stop bit,
loses the answer and nothing else: what the handling did stands, a RELEASE's record stays queued, a RESTART is not
performed. The byte is a mark only when the answer was pending and the line had been quiet for 2 ms. The byte being sent,
read back with a good stop bit, only moves on to the next; ANSWER_ABANDONED with that byte, or with no answer in flight,
cannot occur and changes nothing (the model's choice, log 3). The byte being sent is the first not yet read back (log 33). -/
def Obligations.AbandonedAnswerLosesOnlyTheAnswer : Prop :=
  (∀ (s : State) (b : Byte) (badStop : Bool), s.answer = none → exec (.answerAbandoned b badStop) s = .next s) ∧
  ∀ (s : State) (a : Answer) (b : Byte) (badStop : Bool), s.answer = some a → s.receiver = .hunting →
    (a.sending = true ∧ (badStop = true ∨ a.frame[a.readBack]? ≠ some b) ∨
        a.sending = false ∧ (s.quietLeft ≠ 0 ∨ badStop = true ∨ b ≠ 0xC3#8) →
      ∀ c ∈ [Instr.answerAbandoned b badStop, .hostLineByte b badStop],
        exec c s = .next { s with answer := none, quietLeft := 2 }) ∧
    (a.sending = false → s.quietLeft = 0 →
      exec (.answerAbandoned 0xC3#8 false) s =
        .next { s with answer := none, quietLeft := 2, receiver := .inFrame [] 20 }) ∧
    (a.sending = true → a.frame[a.readBack]? = some b →
      exec (.hostLineByte b false) s =
        .next { s with answer := some { a with readBack := a.readBack + 1 }, quietLeft := 2 } ∧
      exec (.answerAbandoned b false) s = .next s)

/-! ### Releases: POLL, READ FORM and the completion of a RELEASE (R128 to R142) -/

/-- R135, R138: when a RELEASE answer completes, the record it carried leaves the queue and its size the staging count,
its station goes to WAITING, and the room-wait list is served; no sheet and nothing else changes. -/
def Obligations.ReleaseCompletionFreesStaging : Prop :=
  ∀ (s : State) (a : Answer) (r : Record), s.ReleasesSound → s.answer = some a → a.sending = true →
    a.kind = .release → r ∈ s.rq.queue → a.station = stationByte r.station →
    ∃ t moved, exec .answerComplete s = .next t ∧ t.answer = none ∧ t.quietLeft = 2 ∧ t.receiver = s.receiver ∧
      s.Served t (s.rq.queue.filter fun q => q.station != r.station) (s.rq.staging - r.size) s.rq.rooms moved ∧
      t.station r.station = (s.station r.station).setInput .waiting ∧
      (∀ n, n ≠ r.station → (∀ e ∈ moved, e.station ≠ n) → t.station n = s.station n) ∧
      (∀ n, (t.station n).sheet = (s.station n).sheet) ∧ s.SameShared t

/-- R137: a POLL to station 0 is answered with the oldest URGENT record, or else the oldest; a POLL to a station with its
own record; NOTHING when there is none. The record stays queued: nothing changes but the answer. A payload that is not
empty is refused with BAD LENGTH. -/
def Obligations.PollHandsOverRecord : Prop :=
  ∀ s : State, s.Serving →
    (s.rq.queue = [] → exec (.poll 0x00#8 []) s = .next (s.withAnswer 0x00#8 .nothing [])) ∧
    (∀ before r after, s.rq.queue = before ++ r :: after → r.priority = .urgent →
      (∀ q ∈ before, q.priority ≠ .urgent) →
      exec (.poll 0x00#8 []) s = .next (s.withAnswer (stationByte r.station) .release r.bytes)) ∧
    (∀ r rest, s.rq.queue = r :: rest → (∀ q ∈ s.rq.queue, q.priority ≠ .urgent) →
      exec (.poll 0x00#8 []) s = .next (s.withAnswer (stationByte r.station) .release r.bytes)) ∧
    ∀ n,
      ((∀ q ∈ s.rq.queue, q.station ≠ n) →
        exec (.poll (stationByte n) []) s = .next (s.withAnswer (stationByte n) .nothing [])) ∧
      (∀ before r after, s.rq.queue = before ++ r :: after → r.station = n → (∀ q ∈ before, q.station ≠ n) →
        exec (.poll (stationByte n) []) s = .next (s.withAnswer (stationByte n) .release r.bytes)) ∧
      ∀ payload : List Byte, payload ≠ [] → payload.length ≤ 2048 →
        exec (.poll (stationByte n) payload) s = .next (s.withRefusal (stationByte n) 0x03#8 0x00#8 0) ∧
        exec (.poll 0x00#8 payload) s = .next (s.withRefusal 0x00#8 0x03#8 0x00#8 0)

/-- R141, R142: READ FORM answers with the entries of the fields of its scope from the start address on, as many as 2048
bytes hold, and the start of the first field left out, or 0xFFFF; nothing changes but the answer. -/
def Obligations.ReadFormCarriesSelectedFields : Prop :=
  ∀ (s : State) (n : StationIx) (start : Nat) (scope : Byte) (sel : Field → Bool), s.Serving → start < 65536 →
    (scope = 0x00#8 ∧ sel = Field.touched ∨ scope = 0x01#8 ∧ sel = Field.isInput ∨
      scope = 0x02#8 ∧ sel = fun _ => true) →
    ∃ taken rest,
      ((s.station n).sheet.fields.filter fun f => sel f && decide (start ≤ f.start)) = taken ++ rest ∧
      7 + (taken.map fun f => ((s.station n).sheet.entryFor f).size).sum ≤ 2048 ∧
      (∀ f ∈ rest.head?, 2048 <
        7 + (taken.map fun f => ((s.station n).sheet.entryFor f).size).sum + ((s.station n).sheet.entryFor f).size) ∧
      exec (.readForm (stationByte n) (bytes2 start ++ [scope])) s =
        .next (s.withAnswer (stationByte n) .formData
          (bytes2 ((rest.head?.map Field.start).getD 0xFFFF) ++ bytes2 (s.station n).sheet.cursor ++
            [byte1 (s.station n).sheet.top, byte1 taken.length, (s.station n).input.code] ++
            taken.flatMap fun f => ((s.station n).sheet.entryFor f).bytes))

/-! ### Management requests (R180 to R191) -/

/-- R181, R182, R191: STATUS, at any time, and STATION READ and DIRECTORY READ, while RUNNING, report the state as it
stands and change nothing but the answer; bit g of the flags of a DIRECTORY READ is the protect flag of group g. A STATION
READ of a station number outside 1..12 is refused with BAD PARAMETER, with the number as detail. -/
def Obligations.ReadingKindsReportState : Prop :=
  ∀ s : State, s.hostDriverEnabled = false →
    exec (.status 0x00#8 []) s = .next (s.withAnswer 0x00#8 .info
      ([s.store.phase.code, storeOpCode s.store.op, sessionCode s.store.session,
        byte1 ((s.store.session.map Session.expected).getD 0)] ++ bytes2 s.rq.staging ++
        [byte1 s.rq.queue.length, byte1 s.rq.rooms.length, byte1 s.store.directory.length,
          byte1 ((s.store.slots.toList.filter (· == .erased)).length),
          byte1 ((s.store.slots.toList.filter (· == .dirty)).length), s.unitAddr, 0x01#8])) ∧
    (s.store.phase = .running →
      (∃ flags : BitVec 16, (∀ g : Fin 16, flags.getLsbD g.1 = s.store.protect[g]) ∧
        exec (.directoryRead 0x00#8 []) s = .next (s.withAnswer 0x00#8 .info
          (byte1 s.store.directory.length ::
            (s.store.directory.flatMap fun e => [e.form, byte1 e.first, byte1 e.count] ++ bytes2 e.length) ++
            s.store.slots.toList.map SlotState.code ++ bytes2 flags.toNat))) ∧
      (∀ n, exec (.stationRead 0x00#8 [stationByte n]) s = .next (s.withAnswer 0x00#8 .info
        ([flagCode (s.station n).profile.enable, byte1 (s.station n).profile.keyMap.1] ++
          bytes2 (s.station n).profile.repeatDelay ++ bytes2 (s.station n).profile.repeatPeriod ++
          [byte1 (s.station n).profile.chatter, (s.station n).profile.suffix, byte1 (s.station n).profile.gap,
            flagCode (s.station n).profile.advance, (s.station n).profile.releaseCode, (s.station n).link.code,
            (s.station n).input.code, byte1 (errorNumber (s.station n).error)] ++ bytes2 (s.station n).sheet.cursor ++
          [byte1 (s.station n).sheet.top, byte1 (s.station n).sheet.rows, byte1 (s.station n).sheet.header,
            byte1 (s.station n).sheet.fields.length] ++
          (match (s.station n).sheet.band with
            | none => [0x00#8, 0x00#8, 0x00#8, 0x00#8, 0x00#8]
            | some b => [byte1 b.firstField, byte1 b.perItem, byte1 b.items, byte1 b.firstRow, byte1 b.height]) ++
          [flagCode (s.station n).sheet.insert, flagCode (s.station n).scan.isSome,
            byte1 (s.station n).typeAhead.length] ++
          bytes2 (s.station n).keysDiscarded.toNat ++ bytes2 (s.station n).scanRejects.toNat))) ∧
      ∀ k : Byte, k.toNat = 0 ∨ 12 < k.toNat →
        exec (.stationRead 0x00#8 [k]) s = .next (s.withRefusal 0x00#8 0x0E#8 0x00#8 k.toNat))

/-- R189: COUNTERS READ reports the three line counters and the two counters of each station 1..12 in station order, and
clears none of them: nothing changes but the answer. -/
def Obligations.CountersReadClearsNothing : Prop :=
  ∀ s : State, s.Serving →
    exec (.countersRead 0x00#8 []) s = .next (s.withAnswer 0x00#8 .info
      (bytes2 s.checkFails.toNat ++ bytes2 s.framingErrors.toNat ++ bytes2 s.refusals.toNat ++
        (List.finRange 12).flatMap fun n =>
          bytes2 (s.station n).keysDiscarded.toNat ++ bytes2 (s.station n).scanRejects.toNat))

/-- R180: a management request whose payload has not the length of its layout is refused with BAD LENGTH, with the length
received as detail, and changes nothing but REFUSALS. -/
def Obligations.ManagementLengthRefused : Prop :=
  ∀ (s : State) (payload : List Byte), s.Serving → payload.length ≤ 2048 →
    (payload ≠ [] → ∀ k ∈ [DownKind.status, .attentionRead, .countersRead, .directoryRead, .restart],
      exec (k.command 0x00#8 payload) s = .next (s.withRefusal 0x00#8 0x03#8 0x00#8 payload.length)) ∧
    (payload.length ≠ 1 →
      exec (.stationRead 0x00#8 payload) s = .next (s.withRefusal 0x00#8 0x03#8 0x00#8 payload.length)) ∧
    (payload.length ≠ 2 → ∀ k ∈ [DownKind.attentionClear, .attentionMask],
      exec (k.command 0x00#8 payload) s = .next (s.withRefusal 0x00#8 0x03#8 0x00#8 payload.length)) ∧
    (payload.length ≠ 12 →
      exec (.stationSetup 0x00#8 payload) s = .next (s.withRefusal 0x00#8 0x03#8 0x00#8 payload.length)) ∧
    (payload.length ≠ 24 →
      exec (.classSet 0x00#8 payload) s = .next (s.withRefusal 0x00#8 0x03#8 0x00#8 payload.length)) ∧
    ((∀ m plane first count rest, payload = m :: plane :: first :: count :: rest → rest.length ≠ 2 * count.toNat) →
      exec (.keymapSet 0x00#8 payload) s = .next (s.withRefusal 0x00#8 0x03#8 0x00#8 payload.length)) ∧
    (40 < payload.length →
      exec (.broadcastMessage 0x00#8 payload) s = .next (s.withRefusal 0x00#8 0x03#8 0x00#8 payload.length))

/-- R187: ATTENTION READ reports the cause sets of stations 0..12 and both mask octets and clears nothing; ATTENTION CLEAR
clears the causes of one station that its octet names, before its answer is composed, and leaves its other causes set;
positions that name no cause of that station (0..2 of station 0, 0..3 of the others name one) are ignored. A station above
12 is refused with BAD PARAMETER. -/
def Obligations.AttentionReadAndClear : Prop :=
  ∀ s : State, s.Serving →
    exec (.attentionRead 0x00#8 []) s =
      .next (s.withAnswer 0x00#8 .info (((List.finRange 13).map fun i => s.causes[i]) ++ [s.stationMask, s.ctlMask])) ∧
    ∀ k octet : Byte,
      (∀ i : Fin 13, i.1 = k.toNat → ∃ left : Byte,
        (∀ b, left.getLsbD b =
          (s.causes[i].getLsbD b && !(octet.getLsbD b && decide (b < if i.1 = 0 then 3 else 4)))) ∧
        exec (.attentionClear 0x00#8 [k, octet]) s =
          .next ({ s with causes := s.causes.set i.1 left i.2 }.withAnswer 0x00#8 .accept [])) ∧
      (12 < k.toNat → exec (.attentionClear 0x00#8 [k, octet]) s =
        .next (s.withRefusal 0x00#8 0x0E#8 0x00#8 k.toNat))

/-- R188: ATTENTION MASK replaces both mask octets before its answer is composed; positions that name no cause are taken
as clear. Nothing else changes. -/
def Obligations.AttentionMaskReplacesBoth : Prop :=
  ∀ (s : State) (a b : Byte), s.Serving →
    ∃ t stationMask ctlMask, exec (.attentionMask 0x00#8 [a, b]) s = .next t ∧
      t = { s with stationMask := stationMask, ctlMask := ctlMask }.withAnswer 0x00#8 .accept [] ∧
      (∀ i, stationMask.getLsbD i = (a.getLsbD i && decide (i < 4))) ∧
      ∀ i, ctlMask.getLsbD i = (b.getLsbD i && decide (i < 3))

/-- R184: CLASS SET checks its values in order, each failure refused with its subcode and detail, and otherwise replaces
one class record whole, leaving every other class and everything else but the answer. -/
def Obligations.ClassSetReplacesRecord : Prop :=
  ∀ (s : State) (cls chars fold rule : Byte) (low high : Nat) (permits : List Byte), s.Serving →
    low < 2 ^ 32 → high < 2 ^ 32 → permits.length = 12 →
    let c := Instr.classSet 0x00#8
      ([cls, chars, fold, rule] ++ bytes2 (low / 65536) ++ bytes2 (low % 65536) ++ bytes2 (high / 65536) ++
        bytes2 (high % 65536) ++ permits)
    (cls.toNat = 0 ∨ 15 < cls.toNat → exec c s = .next (s.withRefusal 0x00#8 0x0E#8 0x00#8 cls.toNat)) ∧
    ((1 ≤ cls.toNat ∧ cls.toNat ≤ 15) →
      (4 < chars.toNat → exec c s = .next (s.withRefusal 0x00#8 0x0E#8 0x01#8 chars.toNat)) ∧
      (chars.toNat ≤ 4 →
        (2 < rule.toNat → exec c s = .next (s.withRefusal 0x00#8 0x0E#8 0x02#8 rule.toNat)) ∧
        (rule.toNat ≤ 2 →
          (999999999 < low → exec c s = .next (s.withRefusal 0x00#8 0x0E#8 0x03#8 0)) ∧
          (low ≤ 999999999 →
            (999999999 < high → exec c s = .next (s.withRefusal 0x00#8 0x0E#8 0x03#8 1)) ∧
            (high ≤ 999999999 →
              ∃ classes r, exec c s = .next ({ s with classes := classes }.withAnswer 0x00#8 .accept []) ∧
                (∀ k : Fin 16, classRec classes k = if k.1 = cls.toNat then r else classRec s.classes k) ∧
                r.chars = [CharSet.any, .digits, .letters, .alnum, .listed].getD chars.toNat .any ∧
                r.fold = decide (fold ≠ 0x00#8) ∧
                r.rule = [ValueRule.none, .mod10, .range].getD rule.toNat .none ∧ r.low = low ∧ r.high = high ∧
                ∀ i < 12, ∀ j < 8,
                  r.mapPermits (byte1 (0x20 + 8 * i + j)) = (permits.getD i 0x00#8).getLsbD (7 - j))))))

/-- R185: KEYMAP SET replaces the entries of a run of key codes in one plane of one map 1..3, in code order, and no other
entry of any map; a bad map, plane or run is refused with its subcode and detail. -/
def Obligations.KeymapSetReplacesRun : Prop :=
  ∀ (s : State) (m plane first : Byte) (entries : List (Byte × Byte)), s.Serving → s.KeyMapsSound →
    entries.length < 256 →
    let c := Instr.keymapSet 0x00#8
      ([m, plane, first, byte1 entries.length] ++ entries.flatMap fun e => [e.1, e.2])
    (m.toNat = 0 ∨ 3 < m.toNat → exec c s = .next (s.withRefusal 0x00#8 0x0E#8 0x00#8 m.toNat)) ∧
    ((1 ≤ m.toNat ∧ m.toNat ≤ 3) →
      (3 < plane.toNat → exec c s = .next (s.withRefusal 0x00#8 0x0E#8 0x01#8 plane.toNat)) ∧
      (plane.toNat ≤ 3 →
        (entries = [] ∨ first.toNat = 0 ∨ 127 < first.toNat + entries.length - 1 →
          exec c s = .next (s.withRefusal 0x00#8 0x0E#8 0x02#8 first.toNat)) ∧
        (entries ≠ [] → 1 ≤ first.toNat → first.toNat + entries.length - 1 ≤ 127 →
          ∃ maps, exec c s = .next ({ s with keyMaps := maps }.withAnswer 0x00#8 .accept []) ∧
            ∀ (m' : Fin 4) (plane' code : Nat), plane' < 4 → code < 128 →
              { s with keyMaps := maps }.mapEntry m' plane' code =
                if m'.1 = m.toNat ∧ plane' = plane.toNat ∧ first.toNat ≤ code ∧ code < first.toNat + entries.length
                then entries.getD (code - first.toNat) (0x00#8, 0x00#8) else s.mapEntry m' plane' code)))

/-- R44, R190: BROADCAST MESSAGE sets the message area of every station that is not DISABLED, bytes outside the printable
set as '?' and blanks to 40, and marks line 24 stale where the link is ATTACHED; it is answered with the number of
stations reached and of bytes substituted. A DISABLED station, and everything else, is as it was. -/
def Obligations.BroadcastReachesEnabledStations : Prop :=
  ∀ (s : State) (chars : List Byte), s.Serving → chars.length ≤ 40 →
    ∃ t, exec (.broadcastMessage 0x00#8 chars) s = .next t ∧
      t = { s with stations := t.stations }.withAnswer 0x00#8 .accept
        [byte1 ((List.finRange 12).filter fun n => (s.station n).link != LinkState.disabled).length,
          byte1 (chars.filter fun b => !printable b).length] ∧
      ∀ n, ((s.station n).link = .disabled → t.station n = s.station n) ∧
        ((s.station n).link ≠ .disabled →
          (∀ i : Fin 40, (t.station n).message[i] =
            if i.1 < chars.length then toPrintable (chars.getD i.1 0x20#8) else 0x20#8) ∧
          t.station n = { s.station n with message := (t.station n).message, dr := (t.station n).dr } ∧
          (t.station n).dr = { (s.station n).dr with stale := (t.station n).dr.stale } ∧
          ∀ i : Fin 25, (t.station n).dr.stale[i] =
            ((s.station n).dr.stale[i] || ((s.station n).link == .attached && decide (i.1 = 24))))

/-- R28, R32, R183: STATION SETUP writes the profile, clamped; with enable 1 it takes a DISABLED station to DETACHED and
LOCKED with a blank sheet, its counters kept and its probe timer loaded with 500; otherwise, the enable unchanged, only
the profile changes. A bad station number, key map or release code is refused and changes nothing but REFUSALS. -/
def Obligations.StationSetupWritesProfile : Prop :=
  ∀ (s : State) (n : StationIx) (enable keyMap : Byte) (delay period : Nat) (chatter suffix gap advance code : Byte),
    s.Serving → delay < 65536 → period < 65536 →
    let c := fun k => Instr.stationSetup 0x00#8 (setupPayload k enable keyMap delay period chatter suffix gap advance code)
    (∀ k : Byte, k.toNat = 0 ∨ 12 < k.toNat → exec (c k) s = .next (s.withRefusal 0x00#8 0x0E#8 0x00#8 k.toNat)) ∧
    (3 < keyMap.toNat → exec (c (stationByte n)) s = .next (s.withRefusal 0x00#8 0x0E#8 0x01#8 keyMap.toNat)) ∧
    (∀ m : Fin 4, m.1 = keyMap.toNat →
      (0xEF < code.toNat → exec (c (stationByte n)) s = .next (s.withRefusal 0x00#8 0x0E#8 0x02#8 code.toNat)) ∧
      (code.toNat ≤ 0xEF →
        (enable ≠ 0x00#8 → (s.station n).link = .disabled → exec (c (stationByte n)) s =
          .next ((s.setStation n
            { Station.atReset with
                link := .detached, profile := setupProfile true m delay period chatter suffix gap advance code
                dr := { Refresh.atReset with probe := some 500 }, keysDiscarded := (s.station n).keysDiscarded
                scanRejects := (s.station n).scanRejects }).withAnswer 0x00#8 .accept [])) ∧
        (enable ≠ 0x00#8 ∧ (s.station n).link ≠ .disabled ∨ enable = 0x00#8 ∧ (s.station n).link = .disabled →
          exec (c (stationByte n)) s =
            .next ((s.setStation n
              { s.station n with
                  profile := setupProfile (decide (enable ≠ 0x00#8)) m delay period chatter suffix gap advance code }).withAnswer
              0x00#8 .accept []))))

/-- R29, R140, R183: STATION SETUP with enable 0 takes a station in service to DISABLED: everything but the profile
carried and the counters returns to its reset value, its queued record or room-wait entry is discarded, and the room-wait
list is served before the answer is composed. No other station that is not served changes. -/
def Obligations.StationSetupDisables : Prop :=
  ∀ (s : State) (n : StationIx) (m : Fin 4) (delay period : Nat) (chatter suffix gap advance code : Byte),
    s.Serving → s.ReleasesSound → delay < 65536 → period < 65536 → code.toNat ≤ 0xEF →
    (s.station n).link ≠ .disabled →
    ∃ t moved, exec (.stationSetup 0x00#8
        (setupPayload (stationByte n) 0x00#8 (byte1 m.1) delay period chatter suffix gap advance code)) s =
        .next (t.withAnswer 0x00#8 .accept []) ∧
      t.station n =
        { Station.atReset with
            profile := setupProfile false m delay period chatter suffix gap advance code
            keysDiscarded := (s.station n).keysDiscarded, scanRejects := (s.station n).scanRejects } ∧
      s.Served t (s.rq.queue.filter fun r => r.station != n)
        ((s.rq.queue.filter fun r => r.station != n).map Record.size).sum
        (s.rq.rooms.filter fun e => e.station != n) moved ∧
      (∀ k, k ≠ n → (∀ e ∈ moved, e.station ≠ k) → t.station k = s.station k) ∧ s.SameShared t

/-! ### The template store (R143 to R165) -/

/-- R156: LOAD OPEN makes its checks in order, and otherwise opens a session on the range, whose slots become LOADING; no
store operation begins and nothing else changes but the answer, which carries the capacity. The reason code of NOT ERASED
is left open by the manual (log 19). -/
def Obligations.LoadOpenReservesErasedSlots : Prop :=
  ∀ (s : State) (form first count : Byte), s.Serving →
    let c := Instr.loadOpen 0x00#8 [form, first, count]
    let inRange := fun k : Nat => first.toNat ≤ k ∧ k < first.toNat + count.toNat
    (s.store.session ≠ none → exec c s = .next (s.withRefusal 0x00#8 0x09#8 0x00#8 0)) ∧
    (s.store.session = none →
      (s.store.op ≠ none → exec c s = .next (s.withRefusal 0x00#8 0x08#8 0x00#8 0)) ∧
      (s.store.op = none →
        (form.toNat < 1 ∨ 250 < form.toNat ∨ count.toNat < 1 ∨ 8 < count.toNat ∨ 64 < first.toNat + count.toNat →
          exec c s = .next (s.withRefusal 0x00#8 0x0E#8 0x00#8 0)) ∧
        ((1 ≤ form.toNat ∧ form.toNat ≤ 250) → (1 ≤ count.toNat ∧ count.toNat ≤ 8) → first.toNat + count.toNat ≤ 64 →
          (∀ before e after, s.store.directory = before ++ e :: after → (∀ d ∈ before, d.form ≠ form) → e.form = form →
            exec c s = .next (s.withRefusal 0x00#8 0x0B#8 0x00#8 e.first)) ∧
          ((∀ e ∈ s.store.directory, e.form ≠ form) →
            (∀ k, inRange k → s.store.slotProtected k = true →
              (∀ j, inRange j → j < k → s.store.slotProtected j = false) →
              exec c s = .next (s.withRefusal 0x00#8 0x0A#8 0x00#8 (k / 4))) ∧
            ((∀ k, inRange k → s.store.slotProtected k = false) →
              (∀ k, inRange k → s.store.slot k ≠ .erased → (∀ j, inRange j → j < k → s.store.slot j = .erased) →
                ∃ reason, exec c s = .next (s.withRefusal 0x00#8 reason 0x00#8 k)) ∧
              ((∀ k, inRange k → s.store.slot k = .erased) →
                ∃ slots, (∀ k : Fin 64, slots[k] = if inRange k.1 then .loading else s.store.slots[k]) ∧
                  exec c s =
                    .next ((s.setStore { s.store with
                      slots := slots
                      session := some
                        { form := form, first := first.toNat, count := count.toNat, expected := 0, begun := []
                          failed := false, closing := none, abandoning := false, frameRows := 0 } }).withAnswer 0x00#8
                      .accept [byte1 (31 * count.toNat)])))))))

/-- R157, R158: LOAD DATA makes its checks in order, and otherwise begins the first row program of its rows, in ascending
image-row order, each at the slot and row of R143; the expected row does not change at acceptance. -/
def Obligations.LoadDataBeginsRowPrograms : Prop :=
  ∀ (s : State) (row : Byte) (data : List Byte), s.Serving → data.length < 2048 →
    let c := Instr.loadData 0x00#8 (row :: data)
    ((∀ ss ∈ s.store.session, ss.abandoning = true) → exec c s = .next (s.withRefusal 0x00#8 0x09#8 0x00#8 0)) ∧
    ∀ ss, s.store.session = some ss → ss.abandoning = false →
      (ss.failed = true → exec c s = .next (s.withRefusal 0x00#8 0x0D#8 0x00#8 0)) ∧
      (ss.failed = false →
        (s.store.op ≠ none → exec c s = .next (s.withRefusal 0x00#8 0x08#8 0x00#8 0)) ∧
        (s.store.op = none →
          (data.length < 64 ∨ 1024 < data.length ∨ data.length % 64 ≠ 0 →
            exec c s = .next (s.withRefusal 0x00#8 0x03#8 0x00#8 0)) ∧
          ∀ k, 1 ≤ k → k ≤ 16 → data.length = 64 * k →
            (row.toNat ≠ ss.expected → exec c s = .next (s.withRefusal 0x00#8 0x09#8 0x00#8 ss.expected)) ∧
            (row.toNat = ss.expected →
              (31 * ss.count < row.toNat + k → exec c s = .next (s.withRefusal 0x00#8 0x0E#8 0x00#8 0)) ∧
              (row.toNat + k ≤ 31 * ss.count →
                ∃ job rest begun, exec c s =
                    .next ((s.setStore { s.store with
                      op := some (.rowProgram job), rowsWaiting := rest
                      session := some { ss with frameRows := k, begun := begun } }).withAnswer 0x00#8 .accept []) ∧
                  job :: rest = (List.range k).map (fun i =>
                    { slot := ss.first + (row.toNat + i) / 31, row := 1 + (row.toNat + i) % 31
                      bytes := (data.drop (64 * i)).take 64 }) ∧
                  ∀ j, j ∈ begun ↔ j ∈ ss.begun ∨ j = job.slot))))

/-- R159, R160: LOAD CLOSE of an active session makes its checks in order; an image that does not validate ends the
session at once, its begun slots DIRTY and the others ERASED; a valid one sets the closing mark and begins the header row
programs, the TAIL slots first in ascending order and the HEAD slot last. -/
def Obligations.LoadCloseValidatesThenProgramsHeaders : Prop :=
  ∀ (s : State) (length : Nat), s.Serving → length < 65536 →
    let c := Instr.loadClose 0x00#8 (bytes2 length)
    ((∀ ss ∈ s.store.session, ss.abandoning = true) → exec c s = .next (s.withRefusal 0x00#8 0x09#8 0x00#8 0)) ∧
    ∀ ss, s.store.session = some ss → ss.abandoning = false → 1 ≤ ss.count →
      (ss.failed = true → exec c s = .next (s.withRefusal 0x00#8 0x0D#8 0x00#8 0)) ∧
      (ss.failed = false →
        (s.store.op ≠ none → exec c s = .next (s.withRefusal 0x00#8 0x08#8 0x00#8 0)) ∧
        (s.store.op = none →
          (∀ e detail,
            imageFault (readImage s.store.mem ss.first length) ss.form length ss.expected = some (e, detail) →
            ∃ slots, (∀ k : Fin 64, slots[k] =
                if ss.holds k.1 = true then (if k.1 ∈ ss.begun then .dirty else .erased) else s.store.slots[k]) ∧
              exec c s = .next ((s.setStore
                { s.store with slots := slots, session := none, rowsWaiting := [] }).withRefusal 0x00#8 0x0C#8
                (byte1 e.code) detail)) ∧
          (imageFault (readImage s.store.mem ss.first length) ss.form length ss.expected = none →
            ∃ job rest begun, exec c s =
                .next ((s.setStore { s.store with
                  op := some (.rowProgram job), rowsWaiting := rest
                  session := some { ss with closing := some length, begun := begun } }).withAnswer 0x00#8 .accept []) ∧
              job :: rest = ((List.range (ss.count - 1)).map (· + 1) ++ [0]).map (fun i =>
                { slot := ss.first + i, row := 0
                  bytes := [ss.form, byte1 i, byte1 ss.count] ++ bytes2 length ++ List.replicate 58 0xFF#8 ++
                    [0xA5#8] }) ∧
              ∀ j, j ∈ begun ↔ j ∈ ss.begun ∨ j = job.slot)))

/-- R54, R154: an image that passes every check of LOAD CLOSE builds a sound sheet, with every one of its field records on
it and the cursor on its initial field, so that FORM applies it without failure. -/
def Obligations.ValidImageBuildsSoundSheet : Prop :=
  ∀ (image : List Byte) (form : Byte) (rowsLoaded : Nat),
    imageFault image form image.length rowsLoaded = none →
    (templateSheet image).Sound ∧ (templateSheet image).fields.length = imageByte image 4 ∧
      (templateSheet image).rows = imageByte image 1 ∧ (templateSheet image).header = imageByte image 2 ∧
      (∀ i < imageByte image 4, ∀ f, templateField image i = some f → f ∈ (templateSheet image).fields) ∧
      (imageByte image 3 ≠ 0 → ∃ f ∈ (templateSheet image).fields,
        f.number = imageByte image 3 ∧ (templateSheet image).cursor = f.start)

/-- R155, R161: LOAD ABANDON is refused with SEQUENCE when there is no session or it is already abandoning; with a row
program in flight it sets the abandoning mark; otherwise it ends the session at once, its begun slots DIRTY and the others
ERASED. No cause is raised and the directory is not changed. -/
def Obligations.LoadAbandonEndsSession : Prop :=
  ∀ s : State, s.Serving →
    ((∀ ss ∈ s.store.session, ss.abandoning = true) →
      exec (.loadAbandon 0x00#8 []) s = .next (s.withRefusal 0x00#8 0x09#8 0x00#8 0)) ∧
    ∀ ss, s.store.session = some ss → ss.abandoning = false →
      (∀ job, s.store.op = some (.rowProgram job) → exec (.loadAbandon 0x00#8 []) s =
        .next ((s.setStore { s.store with session := some { ss with abandoning := true } }).withAnswer 0x00#8
          .accept [])) ∧
      ((∀ job, s.store.op ≠ some (.rowProgram job)) →
        ∃ slots, (∀ k : Fin 64, slots[k] =
            if ss.holds k.1 = true then (if k.1 ∈ ss.begun then .dirty else .erased) else s.store.slots[k]) ∧
          exec (.loadAbandon 0x00#8 []) s = .next ((s.setStore
            { s.store with slots := slots, session := none, rowsWaiting := [] }).withAnswer 0x00#8 .accept []))

/-- R144, R158, R160, R161: a row program that completes with success has put its row into the memory and changed no other
byte. Then the next row begins; or, after the last data row, the expected row advances with STORE DONE; or, after the
HEAD's header row, the template is listed with STORE DONE; an abandoning session ends. -/
def Obligations.RowProgramSucceeds : Prop :=
  ∀ (s : State) (job : RowJob) (ss : Session), s.store.MemorySound → s.store.op = some (.rowProgram job) →
    s.store.session = some ss →
    ∃ t, exec (.rowProgramComplete true) s = .next t ∧
      t = { s with store := t.store, causes := t.causes } ∧
      (∀ i (h : i < job.bytes.length), t.storeByte (rowAddress job.slot job.row + i) = job.bytes[i]) ∧
      (∀ a, a < rowAddress job.slot job.row ∨ rowAddress job.slot job.row + job.bytes.length ≤ a →
        t.storeByte a = s.storeByte a) ∧
      t.store.protect = s.store.protect ∧ t.store.phase = s.store.phase ∧
      t.store.erasesWaiting = s.store.erasesWaiting ∧
      (ss.abandoning = true →
        t.causes = s.causes ∧ t.store.op = none ∧ t.store.rowsWaiting = [] ∧ t.store.session = none ∧
        t.store.directory = s.store.directory ∧
        ∀ k : Fin 64, t.store.slots[k] =
          if ss.holds k.1 = true then (if k.1 ∈ ss.begun then .dirty else .erased) else s.store.slots[k]) ∧
      (ss.abandoning = false →
        (∀ next rest, s.store.rowsWaiting = next :: rest →
          t.causes = s.causes ∧ t.store.op = some (.rowProgram next) ∧ t.store.rowsWaiting = rest ∧
          t.store.slots = s.store.slots ∧ t.store.directory = s.store.directory ∧
          ∃ begun, t.store.session = some { ss with begun := begun } ∧ ∀ j, j ∈ begun ↔ j ∈ ss.begun ∨ j = next.slot) ∧
        (s.store.rowsWaiting = [] →
          t.causes = s.causes.set 0 (s.causes[0] ||| 0x01#8) ∧ t.store.op = none ∧ t.store.rowsWaiting = [] ∧
          (ss.closing = none → t.store.slots = s.store.slots ∧ t.store.directory = s.store.directory ∧
            t.store.session = some { ss with expected := ss.expected + ss.frameRows }) ∧
          ∀ length, ss.closing = some length → t.store.session = none ∧
            (∀ k : Fin 64, t.store.slots[k] =
              if k.1 = ss.first then .head else if ss.holds k.1 = true then .tail else s.store.slots[k]) ∧
            ∀ e, e ∈ t.store.directory ↔ e ∈ s.store.directory ∨
              e = { form := ss.form, first := ss.first, count := ss.count, length := length }))

/-- R152, R158, R160, R161: a row program that completes with failure raises STORE FAULT and changes no byte outside its
row (where the manual leaves its bytes open, log 9). A data row's failure makes the session FAILED, its expected row kept
and the rows still waiting dropped; a header row's failure, or any failure of an abandoning session, ends the session, its
begun slots DIRTY and the others ERASED. -/
def Obligations.RowProgramFails : Prop :=
  ∀ (s : State) (job : RowJob) (ss : Session), s.store.op = some (.rowProgram job) → s.store.session = some ss →
    job.bytes.length = 64 →
    ∃ t, exec (.rowProgramComplete false) s = .next t ∧
      t = { s with store := t.store, causes := s.causes.set 0 (s.causes[0] ||| 0x02#8), freeCount := t.freeCount } ∧
      (∀ a, a < rowAddress job.slot job.row ∨ rowAddress job.slot job.row + 64 ≤ a → t.storeByte a = s.storeByte a) ∧
      t.store.protect = s.store.protect ∧ t.store.phase = s.store.phase ∧ t.store.directory = s.store.directory ∧
      t.store.erasesWaiting = s.store.erasesWaiting ∧ t.store.op = none ∧ t.store.rowsWaiting = [] ∧
      (ss.abandoning = false → ss.closing = none → t.store.slots = s.store.slots ∧
        t.store.session = some { ss with failed := true }) ∧
      (ss.abandoning = true ∨ ss.closing ≠ none → t.store.session = none ∧
        ∀ k : Fin 64, t.store.slots[k] =
          if ss.holds k.1 = true then (if k.1 ∈ ss.begun then .dirty else .erased) else s.store.slots[k])

/-- R162: ERASE SLOTS makes its checks in order; it skips the slots of protected groups and of templates with a slot in
one, leaves ERASED slots, and takes every other slot of the range to DIRTY, their templates out of the directory, and
begins the erases in ascending order; with nothing to erase it raises STORE DONE at once. It is answered with the two
counts; a skipped slot that is ERASED counts as skipped (the model's reading, log 25), and the template named by a range
that cuts one is the lowest (log 13). -/
def Obligations.EraseSlotsSortsRange : Prop :=
  ∀ (s : State) (first last : Byte), s.Serving →
    let c := Instr.eraseSlots 0x00#8 [first, last]
    let inRange := fun k : Nat => first.toNat ≤ k ∧ k ≤ last.toNat
    (s.store.op ≠ none → exec c s = .next (s.withRefusal 0x00#8 0x08#8 0x00#8 0)) ∧
    (s.store.op = none →
      (s.store.session ≠ none → exec c s = .next (s.withRefusal 0x00#8 0x09#8 0x00#8 0)) ∧
      (s.store.session = none →
        (63 < first.toNat ∨ 63 < last.toNat ∨ last.toNat < first.toNat →
          exec c s = .next (s.withRefusal 0x00#8 0x0E#8 0x00#8 0)) ∧
        (first.toNat ≤ last.toNat → last.toNat ≤ 63 →
          (∀ before e after, s.store.directory = before ++ e :: after →
            (∀ d ∈ before, d.straddles first.toNat last.toNat = false) → e.straddles first.toNat last.toNat = true →
            exec c s = .next (s.withRefusal 0x00#8 0x0E#8 0x01#8 e.first)) ∧
          ((∀ e ∈ s.store.directory, e.straddles first.toNat last.toNat = false) →
            ∃ erase skip : List Nat,
              erase.Pairwise (· < ·) ∧ skip.Pairwise (· < ·) ∧
              (∀ k, k ∈ skip ↔ inRange k ∧ (s.store.slotProtected k = true ∨ ∃ e ∈ s.store.directory,
                e.covers k = true ∧ ∃ j, e.covers j = true ∧ s.store.slotProtected j = true)) ∧
              (∀ k, k ∈ erase ↔ inRange k ∧ k ∉ skip ∧ s.store.slot k ≠ .erased) ∧
              (erase = [] → exec c s = .next ({ s with causes := s.causes.set 0 (s.causes[0] ||| 0x01#8) }.withAnswer
                0x00#8 .accept [0x00#8, byte1 skip.length])) ∧
              ∀ slot rest, erase = slot :: rest → ∃ slots,
                (∀ k : Fin 64, slots[k] = if k.1 ∈ erase then .dirty else s.store.slots[k]) ∧
                exec c s = .next ((s.setStore { s.store with
                  op := some (.slotErase slot), erasesWaiting := rest, slots := slots
                  directory := s.store.directory.filter fun e => !erase.contains e.first }).withAnswer 0x00#8 .accept
                  [byte1 erase.length, byte1 skip.length])))))

/-- R143, R163: a slot whose erase succeeds becomes ERASED and reads 0xFF throughout; one whose erase fails keeps its state
with STORE FAULT; no byte of another slot changes. The next erase then begins; after the last STORE DONE is raised. -/
def Obligations.SlotEraseCompletes : Prop :=
  ∀ (s : State) (slot : Nat) (success : Bool), s.store.op = some (.slotErase slot) →
    ∃ t, exec (.slotEraseComplete success) s = .next t ∧
      t = { s with store := t.store, causes := t.causes, freeCount := t.freeCount } ∧
      t.store.protect = s.store.protect ∧ t.store.phase = s.store.phase ∧ t.store.directory = s.store.directory ∧
      t.store.session = s.store.session ∧ t.store.rowsWaiting = s.store.rowsWaiting ∧
      (∀ a, inSlot slot a = false → t.storeByte a = s.storeByte a) ∧
      (success = true → (∀ a, inSlot slot a = true → t.storeByte a = 0xFF#8) ∧
        (∀ k : Fin 64, t.store.slots[k] = if k.1 = slot then .erased else s.store.slots[k])) ∧
      (success = false → t.store.slots = s.store.slots) ∧
      (∀ next rest, s.store.erasesWaiting = next :: rest →
        t.store.op = some (.slotErase next) ∧ t.store.erasesWaiting = rest ∧
        t.causes = s.causes.set 0 (s.causes[0] ||| if success then 0x00#8 else 0x02#8)) ∧
      (s.store.erasesWaiting = [] → t.store.op = none ∧ t.store.erasesWaiting = [] ∧
        t.causes = s.causes.set 0 (s.causes[0] ||| if success then 0x01#8 else 0x03#8))

/-- R164: PROTECT makes its checks in order and otherwise begins a control update of its group's flag; at the completion
with success the flag takes the setting with STORE DONE, with failure it keeps its old setting with STORE FAULT. -/
def Obligations.ProtectBeginsAndEndsControlUpdate : Prop :=
  (∀ (s : State) (group setting : Byte), s.Serving →
    let c := Instr.protect 0x00#8 [group, setting]
    (s.store.op ≠ none → exec c s = .next (s.withRefusal 0x00#8 0x08#8 0x00#8 0)) ∧
    (s.store.op = none →
      (15 < group.toNat ∨ 1 < setting.toNat → exec c s = .next (s.withRefusal 0x00#8 0x0E#8 0x00#8 0)) ∧
      ∀ g : Fin 16, g.1 = group.toNat → setting.toNat ≤ 1 →
        (setting.toNat = 1 → (∃ k : Fin 64, k.1 / 4 = g.1 ∧ s.store.slots[k] = .loading) →
          exec c s = .next (s.withRefusal 0x00#8 0x0E#8 0x02#8 g.1)) ∧
        (setting.toNat = 0 ∨ (∀ k : Fin 64, k.1 / 4 = g.1 → s.store.slots[k] ≠ .loading) →
          exec c s = .next ((s.setStore
            { s.store with op := some (.controlUpdate g (decide (setting.toNat = 1))) }).withAnswer 0x00#8 .accept [])))) ∧
  ∀ (s : State) (g : Fin 16) (setting : Bool), s.store.op = some (.controlUpdate g setting) →
    exec (.controlUpdateComplete true) s = .next
      { s with store := { s.store with op := none, protect := s.store.protect.set g.1 setting g.2 }
               causes := s.causes.set 0 (s.causes[0] ||| 0x01#8) } ∧
    exec (.controlUpdateComplete false) s = .next
      { s with store := { s.store with op := none }, causes := s.causes.set 0 (s.causes[0] ||| 0x02#8) }

/-- R149, R150: at the completion of the start-up scan the controller is RUNNING, and no byte of the store has changed.
The directory and the slot table agree; every template listed has its header rows in place; every template left out
starts in a slot of one listed below it or carries the form number of one; a slot is ERASED exactly when it reads 0xFF
throughout. SCAN DIRTY is raised exactly when some slot is DIRTY. -/
def Obligations.StartUpScanFindsTemplates : Prop :=
  ∀ s : State, s.store.op = some .startUpScan → s.store.MemorySound →
    ∃ t, exec .startUpScanComplete s = .next t ∧ t = { s with store := t.store, causes := t.causes } ∧
      t.store.mem = s.store.mem ∧ t.store.protect = s.store.protect ∧ t.store.phase = .running ∧ t.store.op = none ∧
      t.store.session = s.store.session ∧ t.store.DirectorySound ∧
      (∀ e ∈ t.store.directory, ∀ j < e.count,
        Memory.readList storeDefault s.store.mem (rowAddress (e.first + j) 0) 64 =
          [e.form, byte1 j, byte1 e.count] ++ bytes2 e.length ++ List.replicate 58 0xFF#8 ++ [0xA5#8]) ∧
      (∀ k e, k < 64 → templateAt s.store.mem k = some e → e ∈ t.store.directory ∨
        ∃ d ∈ t.store.directory, d.first < k ∧ (d.covers k = true ∨ d.form = e.form)) ∧
      (∀ k : Fin 64, (t.store.slots[k] = .erased ↔ ∀ a, inSlot k.1 a = true → s.storeByte a = 0xFF#8) ∧
        t.store.slots[k] ≠ .unknown ∧ t.store.slots[k] ≠ .loading) ∧
      ((∃ k : Fin 64, t.store.slots[k] = .dirty) → t.causes = s.causes.set 0 (s.causes[0] ||| 0x04#8)) ∧
      ((∀ k : Fin 64, t.store.slots[k] ≠ .dirty) → t.causes = s.causes)

/-! ### WRITE (R46 to R70) -/

/-- R46, R48, R49, R53: a WRITE to a DISABLED station, with an empty payload, or to a station whose release is pending
without DISCARD RELEASE is refused before its stream is read. After any run of whole directives, an unknown code, a
directive of any kind whose operands run past the end, and a FORM while a store operation is in flight refuse the frame
with their reason, subcode and offset. A refused frame changes nothing but REFUSALS. That a FORM cut short is CUT SHORT
also while the store is busy is the model's reading (log 26). -/
def Obligations.WriteRefusedBeforeItChangesAnything : Prop :=
  ∀ (s : State) (n : StationIx), s.Serving →
    ((s.station n).link = .disabled → ∀ payload, payload.length ≤ 2048 → exec (.write (stationByte n) payload) s =
      .next (s.withRefusal (stationByte n) 0x05#8 0x00#8 0)) ∧
    ((s.station n).link ≠ .disabled →
      exec (.write (stationByte n) []) s = .next (s.withRefusal (stationByte n) 0x03#8 0x00#8 0) ∧
      ∀ (flags : Byte) (stream : List Byte), stream.length ≤ 2047 →
        ((s.station n).input = .released ∨ (s.station n).input = .roomWait → flags.getLsbD 4 = false →
          exec (.write (stationByte n) (flags :: stream)) s =
            .next (s.withRefusal (stationByte n) 0x06#8 0x00#8 (s.station n).input.code.toNat)) ∧
        ((s.station n).input ≠ .released ∧ (s.station n).input ≠ .roomWait ∨ flags.getLsbD 4 = true →
          ∀ (before : List (List Byte)) (code : Byte) (rest : List Byte), s.PassesPhase1 before →
            stream = before.flatten ++ code :: rest →
            let offset := 1 + before.flatten.length
            (code.toNat = 0 ∨ 0x12 < code.toNat → exec (.write (stationByte n) (flags :: stream)) s =
              .next (s.withRefusal (stationByte n) 0x07#8 0x01#8 offset)) ∧
            (cutDirective code rest = true → exec (.write (stationByte n) (flags :: stream)) s =
              .next (s.withRefusal (stationByte n) 0x07#8 0x02#8 offset)) ∧
            (code = 0x01#8 → rest ≠ [] → s.store.op ≠ none → exec (.write (stationByte n) (flags :: stream)) s =
              .next (s.withRefusal (stationByte n) 0x08#8 0x00#8 offset))))

/-- R1, R45, R51, R56, R57, R70: an AT and a TEXT write the characters from the address on, '?' for those outside the
printable set, up to the sheet's end, count what they replace and cut off, and mark the displayed lines written stale; no
other cell and nothing else of the station changes but its edited-field register, which the WRITE clears. -/
def Obligations.WriteTextPlacesCharacters : Prop :=
  ∀ (s : State) (n : StationIx) (a : Nat) (chars : List Byte), s.Serving → s.SheetsSound → (s.station n).Writable →
    a < (s.station n).sheet.size → chars.length ≤ 255 →
    let written := min chars.length ((s.station n).sheet.size - a)
    ∃ st, exec (.write (stationByte n) ([0x00#8, 0x03#8] ++ bytes2 a ++ [0x06#8, byte1 chars.length] ++ chars)) s =
        .next ((s.setStation n st).withAnswer (stationByte n) .accept
          ([(s.station n).link.code, (s.station n).input.code] ++ bytes2 (chars.length - written) ++
            bytes2 ((chars.take written).filter fun b => !printable b).length)) ∧
      st = { s.station n with
               sheet := { (s.station n).sheet with cells := st.sheet.cells, edited := none }
               dr := { (s.station n).dr with stale := st.dr.stale } } ∧
      (∀ b, st.sheet.cell b =
        if a ≤ b ∧ b < a + written then toPrintable (chars.getD (b - a) 0x20#8) else s.cellAt n b) ∧
      (s.station n).dr.Marked st.dr ((s.station n).link == .attached) ((s.station n).sheet.showsCells a written)

/-- R59: FIELD makes its checks in order, the first that fails ending the frame with its subcode and the directive's
offset; otherwise the new field, its touched flag clear, joins the table in start order and nothing is taken from it. -/
def Obligations.WriteFieldChecksAndInserts : Prop :=
  ∀ (s : State) (n : StationIx) (k start : Nat) (length props cls fill : Byte), s.Serving → s.SheetsSound →
    (s.station n).Writable → k < 256 → start < 65536 →
    let sh := (s.station n).sheet
    let c := Instr.write (stationByte n)
      ([0x00#8, 0x08#8, byte1 k] ++ bytes2 start ++ [length, props, cls, fill])
    let refused := fun sub : Byte => exec c s = .next
      ((s.setStation n { s.station n with sheet := { sh with edited := none } }).withRefusal (stationByte n) 0x07#8 sub 1)
    (k = 0 ∨ 160 < k → refused 0x07#8) ∧
    (1 ≤ k ∧ k ≤ 160 →
      ((∃ f ∈ sh.fields, f.number = k) → refused 0x08#8) ∧
      ((∀ f ∈ sh.fields, f.number ≠ k) →
        (length = 0x00#8 → refused 0x06#8) ∧
        (length ≠ 0x00#8 →
          (sh.size < start + length.toNat → refused 0x03#8) ∧
          (start + length.toNat ≤ sh.size →
            (15 < cls.toNat → refused 0x09#8) ∧
            ∀ cl : Fin 16, cl.1 = cls.toNat →
              ((∃ g ∈ sh.fields, start < g.start + g.length ∧ g.start < start + length.toNat) → refused 0x05#8) ∧
              ((∀ g ∈ sh.fields, start + length.toNat ≤ g.start ∨ g.start + g.length ≤ start) →
                ∃ st, exec c s = .next ((s.setStation n st).withAnswer (stationByte n) .accept
                    [(s.station n).link.code, (s.station n).input.code, 0x00#8, 0x00#8, 0x00#8, 0x00#8]) ∧
                  st = { s.station n with
                           sheet := { sh with fields := st.sheet.fields, edited := none }
                           dr := { (s.station n).dr with stale := st.dr.stale } } ∧
                  st.sheet.FieldsSound ∧
                  (∀ f, f ∈ st.sheet.fields ↔ f ∈ sh.fields ∨
                    f = { number := k, start := start, length := length.toNat, props := fieldPropsOf props cl fill
                          touched := false }) ∧
                  (s.station n).dr.Marked st.dr ((s.station n).link == .attached)
                    (sh.showsCells start length.toNat))))))

/-- R9, R10, R56, R63: ATB and VIEWB translate through the band: field (i, j) is f0 + i p + j and the row of instance i is
r0 + i h; outside the band they end the frame with BAND RANGE, and ATB to a number no field carries with NO SUCH FIELD. -/
def Obligations.BandTranslatesInstances : Prop :=
  ∀ (s : State) (n : StationIx) (i j ch : Byte), s.Serving → s.SheetsSound → (s.station n).Writable →
    printable ch = true →
    let sh := (s.station n).sheet
    let atb := Instr.write (stationByte n) [0x00#8, 0x05#8, i, j, 0x06#8, 0x01#8, ch]
    let viewb := Instr.write (stationByte n) [0x00#8, 0x0E#8, i]
    let refused := fun c (sub : Byte) => exec c s = .next
      ((s.setStation n { s.station n with sheet := { sh with edited := none } }).withRefusal (stationByte n) 0x07#8 sub 1)
    let accepted := fun st => (s.setStation n st).withAnswer (stationByte n) .accept
      [(s.station n).link.code, (s.station n).input.code, 0x00#8, 0x00#8, 0x00#8, 0x00#8]
    (sh.band = none → refused atb 0x0A#8 ∧ refused viewb 0x0A#8) ∧
    ∀ b, sh.band = some b →
      (b.items ≤ i.toNat ∨ b.perItem ≤ j.toNat → refused atb 0x0A#8) ∧
      (i.toNat < b.items → j.toNat < b.perItem →
        ((∀ f ∈ sh.fields, f.number ≠ b.firstField + i.toNat * b.perItem + j.toNat) → refused atb 0x04#8) ∧
        ∀ f ∈ sh.fields, f.number = b.firstField + i.toNat * b.perItem + j.toNat →
          ∃ st, exec atb s = .next (accepted st) ∧
            st = { s.station n with
                     sheet := { sh with cells := st.sheet.cells, edited := none }
                     dr := { (s.station n).dr with stale := st.dr.stale } } ∧
            ∀ a, st.sheet.cell a = if a = f.start then ch else s.cellAt n a) ∧
      (b.items ≤ i.toNat → refused viewb 0x0A#8) ∧
      (i.toNat < b.items → ∃ st, exec viewb s = .next (accepted st) ∧
        st = { s.station n with
                 sheet := { sh with
                   edited := none
                   top := max sh.header (min (b.firstRow + i.toNat * b.height) (sh.rows - 24 + sh.header)) }
                 dr := { (s.station n).dr with stale := st.dr.stale, cursorStale := st.dr.cursorStale } })

/-- R50, R67 to R70, R89: the completion flags of a WRITE without directives. UNTOUCH clears every touched flag; UNLOCK
takes the station to ENTRY, LOCK without UNLOCK to LOCKED with an open scan abandoned; ALARM requests an ALARM of an
ATTACHED station. The answer reports the input state so made. UNLOCK from LOCKED or WAITING replays the type-ahead queue:
actions are taken off it, oldest first, and processed one after another in ENTRY, until none is left or the station is no
longer in ENTRY; a single RIGHT so replayed moves the cursor one cell on. A WRITE with DISCARD RELEASE that passes phase 1,
with directives or none, finds a station in RELEASED or ROOMWAIT with its record or entry gone, the room-wait list served
and the station LOCKED, and goes on from there. -/
def Obligations.WriteFlagsSetInputState : Prop :=
  (∀ (s : State) (n : StationIx) (flags : Byte), s.Serving → (s.station n).Writable →
    let st := s.station n
    let input := if flags.getLsbD 0 then InputState.entry else if flags.getLsbD 1 then .locked else st.input
    let accepted := fun u : State =>
      u.withAnswer (stationByte n) .accept [st.link.code, input.code, 0x00#8, 0x00#8, 0x00#8, 0x00#8]
    let flagged : Sheet :=
      { st.sheet with
          edited := none
          fields := if flags.getLsbD 3 then st.sheet.fields.map fun f => { f with touched := false }
            else st.sheet.fields }
    ∃ t, exec (.write (stationByte n) [flags]) s = .next t ∧
      t = { s with
              receiver := .hunting, quietLeft := 2, answer := t.answer, stations := t.stations, rq := t.rq
              causes := t.causes } ∧
      (∃ a, t.answer = some a ∧ a.station = stationByte n ∧ a.kind = .accept ∧
        a.payload = [st.link.code, input.code, 0x00#8, 0x00#8, 0x00#8, 0x00#8]) ∧
      (∀ k, k ≠ n → t.station k = s.station k) ∧
      t.station n =
        { st with
            input := (t.station n).input, error := (t.station n).error, sheet := (t.station n).sheet
            typeAhead := (t.station n).typeAhead, rep := (t.station n).rep, scan := (t.station n).scan
            dr := (t.station n).dr } ∧
      (∃ done, st.typeAhead = done ++ (t.station n).typeAhead ∨ (t.station n).typeAhead = []) ∧
      (flags.getLsbD 0 = false ∨ st.input = .entry ∨ st.input = .held ∨ st.typeAhead = [] →
        t = accepted (s.setStation n (t.station n)) ∧
        (t.station n).input = input ∧ (t.station n).typeAhead = st.typeAhead ∧ (t.station n).error = st.error ∧
        (t.station n).rep = (if input = st.input then st.rep else none) ∧
        (t.station n).scan = (if flags.getLsbD 1 && !flags.getLsbD 0 then none else st.scan) ∧
        (t.station n).sheet = flagged ∧
        (t.station n).dr.alarm = (st.dr.alarm || (flags.getLsbD 2 && st.link == .attached))) ∧
      (flags.getLsbD 0 = true → st.input = .locked ∨ st.input = .waiting →
        let opened := s.setStation n (({ st with sheet := flagged } : Station).setInput .entry)
        let replayed := fun k => (st.typeAhead.take k).foldl
          (fun u a => (u.setStation n { u.station n with typeAhead := (u.station n).typeAhead.tail }).process n a) opened
        (∃ k ≤ st.typeAhead.length,
          (∀ j < k, ((replayed j).station n).input = .entry) ∧
          (k < st.typeAhead.length → ((replayed k).station n).input ≠ .entry) ∧
          let left := (replayed k).station n
          t = accepted ((replayed k).setStation n
            { left with dr := { left.dr with alarm := left.dr.alarm || (flags.getLsbD 2 && left.link == .attached) } })) ∧
        ((t.station n).input = .entry → (t.station n).typeAhead = []) ∧
        (st.typeAhead = [.move .right] →
          (t.station n).input = .entry ∧
          (t.station n).sheet =
            { flagged with
                cursor := (st.sheet.cursor + 1) % (st.sheet.rows * 80)
                top := st.sheet.followTop ((st.sheet.cursor + 1) % (st.sheet.rows * 80) / 80) st.sheet.top }))) ∧
  ∀ (s : State) (n : StationIx) (flags : Byte) (directives : List (List Byte)), s.Serving → s.ReleasesSound →
    (s.station n).link ≠ .disabled → (s.station n).input = .released ∨ (s.station n).input = .roomWait →
    flags.getLsbD 4 = true → s.PassesPhase1 directives → directives.flatten.length ≤ 2047 →
    ∃ d moved,
      exec (.write (stationByte n) (flags :: directives.flatten)) s =
        exec (.write (stationByte n) (flags :: directives.flatten)) d ∧
      d.station n = (s.station n).setInput .locked ∧
      s.Served d (s.rq.queue.filter fun r => r.station != n)
        ((s.rq.queue.filter fun r => r.station != n).map Record.size).sum
        (s.rq.rooms.filter fun e => e.station != n) moved ∧
      (∀ k, k ≠ n → (∀ e ∈ moved, e.station ≠ k) → d.station k = s.station k) ∧
      d.answer = s.answer ∧ d.receiver = s.receiver ∧ d.quietLeft = s.quietLeft ∧ s.SameShared d

/-! ### Keys (R73 to R100, R125 to R131) -/

/-- R7, R12, R34, R73, R76, R95, R98 to R100: a character key in ENTRY, with the cursor in an INPUT field before its last
cell and the insert flag off, stores the folded character at the cursor, touches the field, makes it the edited field and
moves the cursor right, when the field's class permits the character. Outside an INPUT field it is error 01, a character
not permitted error 02; an error takes the station to HELD and leaves the sheet as it was. Nothing else changes. That the
move marks the cursor stale, whether or not it moved, is the model's reading (log 17). -/
def Obligations.CharacterKeyStoredOrHeld : Prop :=
  ∀ (s : State) (n : StationIx) (code : Byte) (time : Nat), s.SheetsSound → (s.station n).KeyReady →
    (s.station n).Processing → 0x20 ≤ code.toNat → code.toNat ≤ 0x7E →
    let st := s.station n
    let sh := st.sheet
    let held := fun e => (s.setStation n
      { st.heard with
          input := .held, error := some e, typeAhead := [], rep := none
          dr := { st.heard.dr with alarm := true, stale := st.dr.stale.set 24 true } })
    ((∀ f ∈ sh.fields, f.isInput = true → f.covers sh.cursor = false) →
      exec (.keyDown n code time) s = .next (held .fixedCell)) ∧
    ∀ f ∈ sh.fields, f.isInput = true → f.covers sh.cursor = true →
      let k := classRec s.classes f.props.cls
      (k.permitsChar (k.foldChar code) = false → exec (.keyDown n code time) s = .next (held .notAllowed)) ∧
      (k.permitsChar (k.foldChar code) = true → sh.insert = false → sh.cursor + 1 < f.start + f.length →
        ∃ st', exec (.keyDown n code time) s = .next (s.setStation n st') ∧
          st' = { st.heard with
                    rep := some ⟨code, .char code, st.profile.repeatDelay⟩
                    sheet := { sh with
                      cells := st'.sheet.cells, edited := some f.number, cursor := sh.cursor + 1
                      top := sh.followTop ((sh.cursor + 1) / 80) sh.top
                      fields := sh.fields.map fun g => if g.number = f.number then { g with touched := true } else g }
                    dr := { st.heard.dr with stale := st'.dr.stale, cursorStale := true } } ∧
          (∀ a, st'.sheet.cell a = if a = sh.cursor then k.foldChar code else s.cellAt n a) ∧
          ∀ i : Fin 25, st.dr.stale[i] = true ∨ sh.showsCells sh.cursor 1 i.1 = true → st'.dr.stale[i] = true)

/-- R13, R85, R111 to R113: a RIGHT key in ENTRY. The cursor moves one cell on, modulo N; when that leaves the edited field
the exit check comes first: passed, the field is justified and the register cleared; failed, the move is cancelled, the
cursor returns to the field's start and the station is held on the check's code, the register kept. That each of these
marks the cursor stale, whether or not it moved, is the model's reading (log 17). -/
def Obligations.MoveOutOfEditedFieldRunsExitCheck : Prop :=
  ∀ (s : State) (n : StationIx) (time : Nat), s.SheetsSound → (s.station n).KeyReady → (s.station n).Processing →
    let st := s.station n
    let sh := st.sheet
    let target := (sh.cursor + 1) % (sh.rows * 80)
    let passed := fun (st' : Station) (sheet : Sheet) =>
      st' = { st.heard with
                sheet := sheet, rep := some ⟨0x06#8, .move .right, st.profile.repeatDelay⟩
                dr := { st.heard.dr with stale := st'.dr.stale, cursorStale := true } }
    ∃ st', exec (.keyDown n 0x06#8 time) s = .next (s.setStation n st') ∧
      ((sh.edited = none ∨ ∃ f ∈ sh.fields, sh.edited = some f.number ∧ f.covers target = true) →
        passed st' { sh with cursor := target, top := sh.followTop (target / 80) sh.top }) ∧
      ∀ f ∈ sh.fields, sh.edited = some f.number → f.covers target = false →
        let k := classRec s.classes f.props.cls
        (valueChecks k f.props.fill (sh.content f) = none →
          passed st'
            { sh with
                cells := st'.sheet.cells, edited := none, cursor := target
                top := sh.followTop (target / 80) sh.top } ∧
          st'.sheet.content f = justified f.props.justify (sh.content f) ∧
          ∀ a, f.covers a = false → st'.sheet.cell a = s.cellAt n a) ∧
        ∀ e, valueChecks k f.props.fill (sh.content f) = some e →
          st' = { st.heard with
                    input := .held, error := some e, rep := none, typeAhead := []
                    sheet := { sh with cursor := f.start, top := sh.followTop (f.start / 80) sh.top }
                    dr := { st.heard.dr with stale := st'.dr.stale, cursorStale := true, alarm := true } }

/-- R125 to R132: the RELEASE key of map 0 in ENTRY, with no edited field. The first field that fails the field checks
holds the station on its code, with the cursor at its start and the register set to it; a record above 2048 bytes is
error 10. Otherwise the record, composed from the sheet, is queued and the station RELEASED when nobody waits and it fits
in 8192 bytes, and else the station joins the room-wait list in ROOMWAIT. That a failed check marks the cursor stale also
when it stands on the field's start already is the model's reading (log 17). -/
def Obligations.ReleaseKeyQueuesRecord : Prop :=
  ∀ (s : State) (n : StationIx) (time : Nat), s.SheetsSound → (s.station n).KeyReady → (s.station n).Processing →
    (s.station n).sheet.edited = none →
    let st := s.station n
    let sh := st.sheet
    let entries := (sh.fields.filter fun f => f.isInput && f.touched || f.props.alwaysSend).map fun f =>
      ({ number := f.number, chars := dropTrailing (sh.content f) } : Entry)
    let size := 6 + (entries.map fun e => 2 + e.chars.length).sum
    let gone := fun i => ({ st.heard with rep := none } : Station).setInput i
    (∀ before f after e, sh.fields = before ++ f :: after → (∀ g ∈ before, sh.releaseFault s.classes g = none) →
      sh.releaseFault s.classes f = some e →
      ∃ st', exec (.keyDown n 0x0D#8 time) s = .next (s.setStation n st') ∧
        st' = { st.heard with
                  input := .held, error := some e, rep := none, typeAhead := []
                  sheet := { sh with
                    cursor := f.start, edited := some f.number, top := sh.followTop (f.start / 80) sh.top }
                  dr := { st.heard.dr with stale := st'.dr.stale, cursorStale := true, alarm := true } }) ∧
    ((∀ g ∈ sh.fields, sh.releaseFault s.classes g = none) →
      (2048 < size → exec (.keyDown n 0x0D#8 time) s = .next (s.setStation n
        { st.heard with
            input := .held, error := some .tooLong, rep := none, typeAhead := []
            dr := { st.heard.dr with stale := st.dr.stale.set 24 true, alarm := true } })) ∧
      (size ≤ 2048 →
        (s.rq.rooms = [] → s.rq.staging + size ≤ 8192 → exec (.keyDown n 0x0D#8 time) s =
          .next { s.setStation n (gone .released) with
            rq := { s.rq with
              staging := s.rq.staging + size
              queue := s.rq.queue ++
                [{ station := n, code := 0x01#8, priority := .normal, cursor := sh.cursor, top := sh.top
                   entries := entries, size := size }] } }) ∧
        (s.rq.rooms ≠ [] ∨ 8192 < s.rq.staging + size → exec (.keyDown n 0x0D#8 time) s =
          .next { s.setStation n (gone .roomWait) with
            rq := { s.rq with
              rooms := s.rq.rooms ++
                [{ station := n, code := 0x01#8, priority := .normal, full := true, size := size }] } })))

/-- R34, R73, R80 to R83, R87: where a key-down's action goes by the input state: a character is appended to the type-ahead
queue in the locked states and while a scan is open, discarded with an ALARM, a count and TYPEAHEAD FULL when the queue
holds 32, and discarded with an ALARM in HELD; SIGNAL raises SIGNAL in every state; RESET leaves HELD for ENTRY with the
insert flag off and empties the queue in a locked state; NONE stops a repeat and no more. -/
def Obligations.KeyActionsRoutedByInputState : Prop :=
  ∀ (s : State) (n : StationIx) (code : Byte) (time : Nat), (s.station n).KeyReady → 0x20 ≤ code.toNat →
    code.toNat ≤ 0x7E →
    let st := s.station n
    ((st.Queueing ∨ st.input = .entry ∧ st.scan ≠ none) →
      (st.typeAhead.length < 32 → exec (.keyDown n code time) s = .next (s.setStation n
        { st.heard with
            typeAhead := st.typeAhead ++ [.char code], rep := some ⟨code, .char code, st.profile.repeatDelay⟩ })) ∧
      (32 ≤ st.typeAhead.length → exec (.keyDown n code time) s = .next
        { s.setStation n
            { st.heard with
                rep := none, keysDiscarded := st.keysDiscarded + 1, dr := { st.heard.dr with alarm := true } } with
          causes := s.causes.set (causeIx n).1 (s.causes[causeIx n] ||| 0x08#8) (causeIx n).2 })) ∧
    (st.input = .held → exec (.keyDown n code time) s = .next (s.setStation n
      { st.heard with rep := none, dr := { st.heard.dr with alarm := true } })) ∧
    exec (.keyDown n 0x13#8 time) s = .next
      { s.setStation n { st.heard with rep := none } with
        causes := s.causes.set (causeIx n).1 (s.causes[causeIx n] ||| 0x04#8) (causeIx n).2 } ∧
    (st.input = .held → ∃ stale, exec (.keyDown n 0x10#8 time) s = .next (s.setStation n
        { st.heard with
            input := .entry, rep := none, sheet := { st.sheet with insert := false }
            dr := { st.heard.dr with stale := stale } }) ∧ stale = st.dr.stale.set 24 true) ∧
    (st.Queueing → exec (.keyDown n 0x10#8 time) s = .next (s.setStation n
      { st.heard with rep := none, typeAhead := [] })) ∧
    (st.Processing → exec (.keyDown n 0x10#8 time) s = .next (s.setStation n { st.heard with rep := none })) ∧
    exec (.keyDown n 0x17#8 time) s = .next (s.setStation n { st.heard with rep := none })

/-- R73 to R75: the SHIFT key of map 0 joins the SHIFT holders and raises the case of a letter keyed while it is down; a
key-up leaves the modifier sets, stops the repeat of its own key and is remembered; a key-down of the remembered code
within the chatter guard is ignored and suppresses the key-up that follows it. That the suppressed key-up is ignored also
when the guard is by then 0 is the model's reading (log 21); that a key event carries its time of arrival is the model's
choice (log 8). -/
def Obligations.ModifiersAndChatterGuard : Prop :=
  ∀ (s : State) (n : StationIx) (code : Byte) (time : Nat), (s.station n).link = .attached → 1 ≤ code.toNat →
    code.toNat ≤ 127 →
    let st := s.station n
    (st.KeyReady → exec (.keyDown n 0x11#8 time) s = .next (s.setStation n { st.heard with shiftHolders := [0x11#8] })) ∧
    (st.profile.chatter = 0 → st.chatter.suppressed = none → st.profile.keyMap = 0 → st.shiftHolders ≠ [] →
      st.input = .locked → st.typeAhead.length < 32 → 0x61 ≤ code.toNat → code.toNat ≤ 0x7A →
      exec (.keyDown n code time) s = .next (s.setStation n
        { st.heard with
            typeAhead := st.typeAhead ++ [.char (code - 0x20#8)]
            rep := some ⟨code, .char (code - 0x20#8), st.profile.repeatDelay⟩ })) ∧
    (∀ t0, st.profile.chatter ≠ 0 → st.chatter.keyUp = some (code, t0) → time < t0 + st.profile.chatter →
      exec (.keyDown n code time) s = .next (s.setStation n
        { st.heard with chatter := { st.chatter with suppressed := some code } })) ∧
    (st.chatter.suppressed = some code → exec (.keyUp n code time) s = .next (s.setStation n
      { st.heard with chatter := { st.chatter with suppressed := none } })) ∧
    (st.chatter.suppressed ≠ some code → exec (.keyUp n code time) s = .next (s.setStation n
      { st.heard with
          chatter := { st.chatter with keyUp := some (code, time) }
          shiftHolders := st.shiftHolders.filter (· != code), altHolders := st.altHolders.filter (· != code)
          rep := st.rep.filter fun r => r.key != code }))

/-! ### Scans (R114 to R123) -/

/-- R114 to R116, R121: a scanner character opens a scan in ENTRY, is appended to an open one, or sets its overflow flag
when the buffer holds 64, with the gap timer loaded each time; outside ENTRY it is counted in SCAN REJECTS with an ALARM;
the suffix with no scan open is discarded. -/
def Obligations.ScanCharactersBuildScan : Prop :=
  ∀ (s : State) (n : StationIx) (ch : Byte), (s.station n).link = .attached →
    let st := s.station n
    (st.scan = none → st.profile.suffix ≠ 0x00#8 → ch = st.profile.suffix →
      exec (.scanch n ch) s = .next (s.setStation n st.heard)) ∧
    ((st.profile.suffix = 0x00#8 ∨ ch ≠ st.profile.suffix) →
      (st.scan = none → st.input = .entry → exec (.scanch n ch) s = .next (s.setStation n
        { st.heard with
            scan := some ⟨[ch], false, st.profile.gap⟩, rep := none
            dr := { st.heard.dr with stale := st.dr.stale.set 24 true } })) ∧
      (st.scan = none → st.input ≠ .entry → exec (.scanch n ch) s = .next (s.setStation n
        { st.heard with scanRejects := st.scanRejects + 1, dr := { st.heard.dr with alarm := true } })) ∧
      ∀ sc, st.scan = some sc →
        (sc.buffer.length < 64 → exec (.scanch n ch) s = .next (s.setStation n
          { st.heard with scan := some ⟨sc.buffer ++ [ch], sc.overflow, st.profile.gap⟩ })) ∧
        (64 ≤ sc.buffer.length → exec (.scanch n ch) s = .next (s.setStation n
          { st.heard with scan := some ⟨sc.buffer, true, st.profile.gap⟩ })))

/-- R117 to R122: the gap timer's expiry closes an open scan, and so does the suffix. A scan that overflowed, does not fit
the INPUT field that holds the cursor, or holds a character its class does not permit leaves the sheet as it was and holds
the station on error 09, counted. One accepted replaces the field's whole content and the value checks run at once: failed,
the station is held on their code with the cursor at the field's start; passed, with neither advance nor scan release and a
LEFT field, the field is touched and the cursor stays. The expiry closes the scan whatever was left of the gap when it comes
as a command (the model's choice, log 4), and a failed check marks the cursor stale also when it stands on the field's
start already (the model's reading, log 17). -/
def Obligations.ScanClosesIntoField : Prop :=
  ∀ (s : State) (n : StationIx) (sc : Scan), s.SheetsSound → (s.station n).link = .attached →
    (s.station n).input = .entry → (s.station n).scan = some sc → (s.station n).typeAhead = [] →
    let st := s.station n
    let sh := st.sheet
    let touched := fun f : Field => sh.fields.map fun g => if g.number = f.number then { g with touched := true } else g
    (st.profile.suffix ≠ 0x00#8 → exec (.scanch n st.profile.suffix) s =
      exec (.gapTimerExpiry n) (s.setStation n st.heard)) ∧
    ((sc.overflow = true ∨ ∀ f ∈ sh.fields, f.isInput = true → f.covers sh.cursor = true →
        f.length < sc.buffer.length ∨ ∃ c ∈ sc.buffer,
          (classRec s.classes f.props.cls).permitsChar ((classRec s.classes f.props.cls).foldChar c) = false) →
      exec (.gapTimerExpiry n) s = .next (s.setStation n
        { st with
            scan := none, input := .held, error := some .scanReject, rep := none, scanRejects := st.scanRejects + 1
            dr := { st.dr with alarm := true, stale := st.dr.stale.set 24 true } })) ∧
    ∀ f ∈ sh.fields, f.isInput = true → f.covers sh.cursor = true → sc.overflow = false →
      sc.buffer.length ≤ f.length →
      (∀ c ∈ sc.buffer,
        (classRec s.classes f.props.cls).permitsChar ((classRec s.classes f.props.cls).foldChar c) = true) →
      let content := sc.buffer.map (classRec s.classes f.props.cls).foldChar ++
        List.replicate (f.length - sc.buffer.length) 0x20#8
      (∀ e, valueChecks (classRec s.classes f.props.cls) f.props.fill content = some e →
        ∃ st', exec (.gapTimerExpiry n) s = .next (s.setStation n st') ∧
          st' = { st with
                    scan := none, input := .held, error := some e, rep := none
                    sheet := { sh with
                      cells := st'.sheet.cells, edited := some f.number, cursor := f.start
                      top := sh.followTop (f.start / 80) sh.top, fields := touched f }
                    dr := { st.dr with stale := st'.dr.stale, cursorStale := true, alarm := true } } ∧
          st'.sheet.content f = content ∧ ∀ a, f.covers a = false → st'.sheet.cell a = s.cellAt n a) ∧
      (valueChecks (classRec s.classes f.props.cls) f.props.fill content = none → f.props.justify = .left →
        st.profile.advance = false → st.profile.releaseCode = 0x00#8 →
        ∃ st', exec (.gapTimerExpiry n) s = .next (s.setStation n st') ∧
          st' = { st with
                    scan := none
                    sheet := { sh with cells := st'.sheet.cells, edited := none, fields := touched f }
                    dr := { st.dr with stale := st'.dr.stale } } ∧
          st'.sheet.content f = content ∧ ∀ a, f.covers a = false → st'.sheet.cell a = s.cellAt n a)

/-! ### Links, timers and display refresh (R23 to R43, R193) -/

/-- R24 to R26, R40: PRESENT, PAUSE and RESUME on an ATTACHED link load the silence timer, and set or clear the pause flag;
on a DETACHED link they attach it first, raising ATTACHED and marking the whole screen; on a DISABLED link they are not
listened to. That the message DR then chooses is started by a step of its own, START_MESSAGE, and not within RESUME, is the
model's reading (log 18). -/
def Obligations.TerminalMessagesAttachAndReload : Prop :=
  ∀ (s : State) (n : StationIx),
    let st := s.station n
    let attached : Station :=
      { st with
          link := .attached
          dr := { st.dr with silence := some 2000, paused := false, rx := none, stale := Vector.replicate 25 true
                             cursorStale := true } }
    let raised := fun t : State => { t with causes := s.causes.set (causeIx n).1 (s.causes[causeIx n] ||| 0x01#8) (causeIx n).2 }
    (st.link = .attached →
      exec (.present n) s = .next (s.setStation n st.heard) ∧
      exec (.pause n) s = .next (s.setStation n { st.heard with dr := { st.heard.dr with paused := true } }) ∧
      exec (.resume n) s = .next (s.setStation n { st.heard with dr := { st.heard.dr with paused := false } })) ∧
    (st.link = .detached →
      exec (.present n) s = .next (raised (s.setStation n attached)) ∧
      exec (.resume n) s = .next (raised (s.setStation n attached)) ∧
      exec (.pause n) s = .next (raised (s.setStation n { attached with dr := { attached.dr with paused := true } }))) ∧
    (st.link = .disabled → ∀ (code ch : Byte) (time : Nat), ∀ c ∈
      [Instr.present n, .pause n, .resume n, .keyDown n code time, .keyUp n code time, .scanch n ch,
        .linkByte n ch true time],
      exec c s = .next s)

/-- R24, R193: the bytes of a terminal message, each with good parity, leave the state that the message given as one
command leaves; a bad parity, a KEY argument out of range and 10 ms without a byte discard the message so far, and a byte
that is no lead byte is discarded alone. That one command stands for the whole message, and that the timeout acts whatever
the count, are the model's choices (logs 4 and 7). -/
def Obligations.MessageArrivesByteByByte : Prop :=
  ∀ (s : State) (n : StationIx) (b : Byte) (time t1 t2 : Nat), (s.station n).link ≠ .disabled →
    (s.station n).dr.rx = none →
    let lead := fun byte : Byte => Instr.linkByte n byte true t1
    (1 ≤ b.toNat → b.toNat ≤ 127 →
      runAll [lead 0x81#8, .linkByte n b true t2, .linkByte n 0x01#8 true time] s = exec (.keyDown n b time) s ∧
      runAll [lead 0x81#8, .linkByte n b true t2, .linkByte n 0x00#8 true time] s = exec (.keyUp n b time) s ∧
      ∀ d : Byte, 2 ≤ d.toNat →
        runAll [lead 0x81#8, .linkByte n b true t2, .linkByte n d true time] s = .next s) ∧
    (b.toNat = 0 ∨ 127 < b.toNat → runAll [lead 0x81#8, .linkByte n b true t2] s = .next s) ∧
    runAll [lead 0x82#8, .linkByte n b true time] s = exec (.scanch n b) s ∧
    exec (lead 0x83#8) s = exec (.pause n) s ∧ exec (lead 0x84#8) s = exec (.resume n) s ∧
    exec (lead 0x85#8) s = exec (.present n) s ∧
    (b.toNat < 0x81 ∨ 0x85 < b.toNat → exec (lead b) s = .next s) ∧
    (∀ part, exec (.linkByteTimeout n) (s.setStation n { s.station n with dr := { (s.station n).dr with rx := some part } }) =
      .next s) ∧
    exec (lead 0x81#8) s = .next (s.setStation n
      { s.station n with dr := { (s.station n).dr with rx := some (.keyLead, 10) } }) ∧
    runAll [lead 0x82#8, .linkByte n b false time] s = .next s

/-- R26, R27: when the silence timer of an ATTACHED link runs out the link detaches with DETACHED raised: the type-ahead
queue, the modifiers, the chatter memory, the repeat and an open scan are gone, the stale set, the pause flag, a pending
ALARM and the message in flight with them, and the probe timer is loaded when a message was in flight. The input state,
the sheet, the error code, the message area, the profile, the counters and the release stand. The expiry comes as a command,
whatever the count (the model's choice, log 4). -/
def Obligations.SilenceDetachesLink : Prop :=
  ∀ (s : State) (n : StationIx), (s.station n).link = .attached → (s.station n).dr.silence ≠ none →
    exec (.silenceTimerExpiry n) s = .next
      { s.setStation n
          { s.station n with
              link := .detached, typeAhead := [], shiftHolders := [], altHolders := [], chatter := ⟨none, none⟩
              rep := none, scan := none
              dr :=
                { stale := Vector.replicate 25 false, cursorStale := false, paused := false, alarm := false
                  inFlight := none, silence := none, rx := none
                  probe := if (s.station n).dr.inFlight = none then (s.station n).dr.probe else some 500 } } with
        causes := s.causes.set (causeIx n).1 (s.causes[causeIx n] ||| 0x02#8) (causeIx n).2 }

/-- R34: the repeat timer running out with the station not in ENTRY, or with a scan open, ends the repeat and nothing else;
in ENTRY it reloads the repeat period and processes the action once more, here a RIGHT with no edited field. The expiry
comes as a command, whatever the count (the model's choice, log 4), and reloads before it processes (log 28). -/
def Obligations.RepeatTimerRepeatsAction : Prop :=
  ∀ (s : State) (n : StationIx) (r : Repeat), (s.station n).rep = some r →
    ((s.station n).input ≠ .entry ∨ (s.station n).scan ≠ none →
      exec (.repeatTimerExpiry n) s = .next (s.setStation n { s.station n with rep := none })) ∧
    ((s.station n).Processing → (s.station n).sheet.edited = none → r.action = .move .right →
      ∃ st, exec (.repeatTimerExpiry n) s = .next (s.setStation n st) ∧
        st = { s.station n with
                 rep := some { r with left := (s.station n).profile.repeatPeriod }
                 sheet := { (s.station n).sheet with
                   cursor := ((s.station n).sheet.cursor + 1) % ((s.station n).sheet.rows * 80)
                   top := st.sheet.top }
                 dr := st.dr })

/-- R38, R39, R42: the probe timer running out starts a PROBE when no message is in flight, whatever the link state and
the pause flag, and else only stops (the model's reading, log 27); the completion of a message leaves none in flight and
loads the probe timer; that DR's next choice is then a step of its own is the model's reading (log 18). The expiry comes as
a command, whatever the count (the model's choice, log 4). -/
def Obligations.ProbesAndCompletions : Prop :=
  ∀ (s : State) (n : StationIx),
    let dr := (s.station n).dr
    let refresh := fun dr' => s.setStation n { s.station n with dr := dr' }
    (dr.probe ≠ none → dr.inFlight = none →
      exec (.probeTimerExpiry n) s = .next (refresh { dr with probe := none, inFlight := some .probe })) ∧
    (dr.probe ≠ none → dr.inFlight ≠ none →
      exec (.probeTimerExpiry n) s = .next (refresh { dr with probe := none })) ∧
    (dr.inFlight ≠ none →
      exec (.messageComplete n) s = .next (refresh { dr with inFlight := none, probe := some 500 }))

/-- R37 to R39, R41, R43: DR's choice on an ATTACHED link, not paused, with no message in flight: a pending ALARM; else
line 24, as the indicator line is then; else the lowest stale line of 0..23, with the 80 cells of the row it shows; else a
CURSOR when the cursor is stale; else nothing. What is started is no longer pending or stale. That the choice is a step of
its own is the model's reading (log 18). -/
def Obligations.RefreshChoosesFirstPending : Prop :=
  ∀ (s : State) (n : StationIx), (s.station n).link = .attached → (s.station n).dr.paused = false →
    (s.station n).dr.inFlight = none →
    let st := s.station n
    let sh := st.sheet
    let refresh := fun dr' => s.setStation n { s.station n with dr := dr' }
    (st.dr.alarm = true →
      exec (.startMessage n) s = .next (refresh { st.dr with alarm := false, inFlight := some .alarm })) ∧
    (st.dr.alarm = false →
      (st.dr.stale[24] = true → exec (.startMessage n) s =
        .next (refresh { st.dr with stale := st.dr.stale.set 24 false, inFlight := some (.line 24 st.indicator) })) ∧
      (st.dr.stale[24] = false →
        (∀ i : Fin 24, st.dr.stale[i.castSucc] = true → (∀ j : Fin 24, j < i → st.dr.stale[j.castSucc] = false) →
          exec (.startMessage n) s = .next (refresh
            { st.dr with
                stale := st.dr.stale.set i.1 false
                inFlight := some (.line i.1 ((List.range 80).map fun k => sh.shown (sh.rowOnLine i.1 * 80 + k))) })) ∧
        ((∀ i : Fin 24, st.dr.stale[i.castSucc] = false) →
          (st.dr.cursorStale = true →
            (∀ line, sh.lineOfRow (sh.cursor / 80) = some line → exec (.startMessage n) s = .next (refresh
              { st.dr with cursorStale := false, inFlight := some (.cursor line (sh.cursor % 80) true) })) ∧
            (sh.lineOfRow (sh.cursor / 80) = none → exec (.startMessage n) s = .next (refresh
              { st.dr with cursorStale := false, inFlight := some (.cursor 0 (sh.cursor % 80) false) }))) ∧
          (st.dr.cursorStale = false → exec (.startMessage n) s = .next s))))

/-! ### Invariants: what every step keeps -/

/-- R1, R5, R9, R12, R19: every step keeps every sheet sound, from every state whose sheets are. -/
def Obligations.StepKeepsSheetsSound : Prop :=
  ∀ s t : State, s.SheetsSound → step s = .next t → t.SheetsSound

/-- R26, R29 to R32, R36, R42, R86, R114, R129 to R139: every step keeps every station sound and the releases sound, from
every state in which both are: a type-ahead queue holds at most 32 actions and none in HELD, in ENTRY with no scan open or
off an ATTACHED link; a scan is open only in ENTRY; a station has a record exactly in RELEASED and an entry exactly in
ROOMWAIT; the staging count is the size of what is queued and at most 8192; the head of the room-wait list does not fit; a
RELEASE in flight carries a record that is still queued. -/
def Obligations.StepKeepsStationsAndReleasesSound : Prop :=
  ∀ s t : State, s.StationsSound → s.ReleasesSound → step s = .next t → t.StationsSound ∧ t.ReleasesSound

/-- R143 to R164: every step keeps the template store sound: the slot table, the directory, the load session and the work
in flight agree, no slot of a protected group is loaded, programmed or erased, and ERASED slots read 0xFF. -/
def Obligations.StepKeepsStoreSound : Prop :=
  ∀ s t : State, s.store.Sound → step s = .next t → t.store.Sound

/-- R76, R167 to R173, R179: every step keeps the key maps in canonical form and the host line sound: the receiver is
HUNTING while an answer is in flight, and a frame being received has room for its length field. -/
def Obligations.StepKeepsLineAndKeyMapsSound : Prop :=
  (∀ s t : State, s.KeyMapsSound → step s = .next t → t.KeyMapsSound) ∧
  ∀ s t : State, s.LineSound → step s = .next t → t.LineSound
end

