-- ==== Sys2Proof/Laws/Memory.lean ====
section
/-! SUPPORT. The laws of byte memories: a read after a write, and every operation keeps the canonical form. -/

namespace Sys2Proof.Machine

variable {d : Nat → Byte}

@[simp] theorem Memory.read_nil (a : Nat) : Memory.read d [] a = d a := rfl

theorem Memory.read_cons (c : Host.Cell) (m : Memory) (a : Nat) :
    Memory.read d (c :: m) a = if c.1 = a then c.2 else Memory.read d m a := rfl

/-- An address that no entry lists reads as the default. -/
theorem Memory.read_unlisted (m : Memory) (a : Nat) (h : ∀ c ∈ m, c.1 ≠ a) : Memory.read d m a = d a := by
  induction m with
  | nil => rfl
  | cons c m ih =>
    rw [Memory.read_cons, if_neg (h c (by simp))]
    exact ih fun e he => h e (by simp [he])

/-- A write leaves every other address alone. -/
theorem Memory.read_write_ne (m : Memory) (a b : Nat) (v : Byte) (h : b ≠ a) :
    Memory.read d (Memory.write d m a v) b = Memory.read d m b := by
  induction m with
  | nil =>
    unfold Memory.write
    split
    · rfl
    · simp [Memory.read_cons, Ne.symm h]
  | cons c m ih =>
    unfold Memory.write
    split
    · split
      · rfl
      · simp [Memory.read_cons, Ne.symm h]
    · split
      · rename_i hc
        split
        · simp [Memory.read_cons, ← hc, Ne.symm h]
        · simp [Memory.read_cons, ← hc, Ne.symm h]
      · simp [Memory.read_cons, ih]

/-- The tail of a canonical memory is canonical. -/
theorem Memory.wf_tail {c : Host.Cell} {m : Memory} (h : Memory.wf d (c :: m)) : Memory.wf d m :=
  ⟨(List.pairwise_cons.mp h.1).2, fun e he => h.2 e (by simp [he])⟩

/-- The entries after the first lie above it. -/
theorem Memory.wf_head {c : Host.Cell} {m : Memory} (h : Memory.wf d (c :: m)) : ∀ e ∈ m, c.1 < e.1 :=
  (List.pairwise_cons.mp h.1).1

/-- A read of the address just written gives the value written. -/
theorem Memory.read_write_same (m : Memory) (a : Nat) (v : Byte) (h : Memory.wf d m) :
    Memory.read d (Memory.write d m a v) a = v := by
  induction m with
  | nil =>
    unfold Memory.write
    split
    · rename_i hv; simp [hv]
    · simp [Memory.read_cons]
  | cons c m ih =>
    have below := Memory.wf_head h
    unfold Memory.write
    split
    · rename_i hc
      split
      · rename_i hv
        rw [Memory.read_unlisted _ _ ?_, hv]
        intro e he
        rcases List.mem_cons.mp he with rfl | he
        · omega
        · have := below e he; omega
      · simp [Memory.read_cons]
    · split
      · rename_i hc
        split
        · rename_i hv
          rw [Memory.read_unlisted _ _ ?_, hv]
          intro e he
          have := below e he; omega
        · simp [Memory.read_cons]
      · rename_i h1 h2
        rw [Memory.read_cons, if_neg (by omega)]
        exact ih (Memory.wf_tail h)

/-- What a write lists: what was listed, and the address written. -/
theorem Memory.mem_write {m : Memory} {a : Nat} {v : Byte} {c : Host.Cell} (h : c ∈ Memory.write d m a v) :
    c ∈ m ∨ c = (a, v) := by
  induction m with
  | nil =>
    unfold Memory.write at h
    split at h <;> simp_all
  | cons e m ih =>
    unfold Memory.write at h
    split at h
    · split at h
      · exact .inl h
      · rcases List.mem_cons.mp h with rfl | h
        · exact .inr rfl
        · exact .inl h
    · split at h
      · split at h
        · exact .inl (by simp [h])
        · rcases List.mem_cons.mp h with rfl | h
          · exact .inr rfl
          · exact .inl (by simp [h])
      · rcases List.mem_cons.mp h with rfl | h
        · exact .inl (by simp)
        · rcases ih h with h | h
          · exact .inl (by simp [h])
          · exact .inr h

/-- A write keeps the canonical form. -/
theorem Memory.wf_write (m : Memory) (a : Nat) (v : Byte) (h : Memory.wf d m) : Memory.wf d (Memory.write d m a v) := by
  induction m with
  | nil =>
    unfold Memory.write
    split
    · exact h
    · rename_i hv; exact ⟨by simp, by simp [hv]⟩
  | cons c m ih =>
    have tail := Memory.wf_tail h
    have below := Memory.wf_head h
    have hc := h.2 c (by simp)
    unfold Memory.write
    split
    · rename_i hlt
      split
      · exact h
      · rename_i hv
        refine ⟨List.pairwise_cons.mpr ⟨?_, h.1⟩, ?_⟩
        · intro e he
          rcases List.mem_cons.mp he with rfl | he
          · exact hlt
          · have := below e he; simp only; omega
        · intro e he
          rcases List.mem_cons.mp he with rfl | he
          · exact hv
          · exact h.2 e he
    · split
      · rename_i _ heq
        split
        · exact tail
        · rename_i hv
          refine ⟨List.pairwise_cons.mpr ⟨?_, tail.1⟩, ?_⟩
          · intro e he
            have := below e he; simp only; omega
          · intro e he
            rcases List.mem_cons.mp he with rfl | he
            · exact hv
            · exact tail.2 e he
      · rename_i h1 h2
        have := ih tail
        refine ⟨List.pairwise_cons.mpr ⟨?_, this.1⟩, ?_⟩
        · intro e he
          rcases Memory.mem_write he with he | rfl
          · exact below e he
          · simp only; omega
        · intro e he
          rcases List.mem_cons.mp he with rfl | he
          · exact hc
          · exact this.2 e he

/-- The empty memory is canonical. -/
theorem Memory.wf_nil : Memory.wf d [] := ⟨.nil, by simp⟩

/-- Writing a run of bytes keeps the canonical form. -/
theorem Memory.wf_writeList (m : Memory) (a : Nat) (vs : List Byte) (h : Memory.wf d m) :
    Memory.wf d (Memory.writeList d m a vs) := by
  induction vs generalizing m a with
  | nil => exact h
  | cons v vs ih => exact ih _ _ (Memory.wf_write m a v h)

/-- Writing a run of bytes leaves every address outside the run alone. -/
theorem Memory.read_writeList_outside (m : Memory) (a b : Nat) (vs : List Byte) (h : b < a ∨ a + vs.length ≤ b) :
    Memory.read d (Memory.writeList d m a vs) b = Memory.read d m b := by
  induction vs generalizing m a with
  | nil => rfl
  | cons v vs ih =>
    rw [List.length_cons] at h
    rw [Memory.writeList, ih _ _ (by omega), Memory.read_write_ne _ _ _ _ (by omega)]

/-- Inside the run, the byte written is read back. -/
theorem Memory.read_writeList_inside (m : Memory) (a i : Nat) (vs : List Byte) (h : Memory.wf d m)
    (hi : i < vs.length) : Memory.read d (Memory.writeList d m a vs) (a + i) = vs[i] := by
  induction vs generalizing m a i with
  | nil => simp at hi
  | cons v vs ih =>
    rw [Memory.writeList]
    cases i with
    | zero =>
      rw [Memory.read_writeList_outside _ _ _ _ (by omega)]
      exact Memory.read_write_same m a v h
    | succ i =>
      have := ih (Memory.write d m a v) (a + 1) i (Memory.wf_write _ _ _ h) (by simpa using hi)
      rw [show a + (i + 1) = a + 1 + i by omega, this]
      rfl

/-- What writing a run of bytes lists: what was listed, and addresses of the run with their bytes. -/
theorem Memory.mem_writeList {m : Memory} {a : Nat} {vs : List Byte} {c : Host.Cell}
    (h : c ∈ Memory.writeList d m a vs) : c ∈ m ∨ (a ≤ c.1 ∧ c.1 < a + vs.length ∧ c.2 ∈ vs) := by
  induction vs generalizing m a with
  | nil => exact .inl h
  | cons v vs ih =>
    rcases ih h with h | ⟨h1, h2, h3⟩
    · rcases Memory.mem_write h with h | rfl
      · exact .inl h
      · exact .inr ⟨Nat.le_refl _, by simp, by simp⟩
    · exact .inr ⟨by omega, by rw [List.length_cons]; omega, by simp [h3]⟩

@[simp] theorem Memory.length_readList (m : Memory) (a n : Nat) : (Memory.readList d m a n).length = n := by
  simp [Memory.readList]

theorem Memory.getElem_readList (m : Memory) (a n i : Nat) (h : i < (Memory.readList d m a n).length) :
    (Memory.readList d m a n)[i] = Memory.read d m (a + i) := by
  simp [Memory.readList]

/-- Taking entries out keeps the canonical form. -/
theorem Memory.wf_filter (m : Memory) (p : Host.Cell → Bool) (h : Memory.wf d m) : Memory.wf d (m.filter p) :=
  ⟨h.1.filter p, fun c hc => h.2 c (List.mem_of_mem_filter hc)⟩

/-! ### The template store's memory -/

/-- Erasing a slot keeps the canonical form. -/
theorem eraseSlot_wf (m : Memory) (slot : Nat) (h : Memory.wf storeDefault m) :
    Memory.wf storeDefault (eraseSlot m slot) := Memory.wf_filter m _ h

/-- Erasing a slot leaves every address outside the slot alone. -/
theorem eraseSlot_outside (m : Memory) (slot a : Nat) (h : inSlot slot a = false) :
    Memory.read storeDefault (eraseSlot m slot) a = Memory.read storeDefault m a := by
  induction m with
  | nil => rfl
  | cons c m ih =>
    unfold eraseSlot at ih ⊢
    rw [List.filter_cons]
    split
    · rw [Memory.read_cons, Memory.read_cons, ih]
    · rename_i hc
      rw [Memory.read_cons, if_neg, ih]
      rintro rfl
      simp [h] at hc

/-- R143: after an erase every byte of the slot reads 0xFF. -/
theorem eraseSlot_inside (m : Memory) (slot a : Nat) (h : inSlot slot a = true) :
    Memory.read storeDefault (eraseSlot m slot) a = 0xFF#8 := by
  rw [Memory.read_unlisted]
  · rfl
  · intro c hc
    rintro rfl
    have := List.of_mem_filter hc
    simp [h] at this

/-- A row program changes no byte outside the bytes it puts down. -/
theorem putRow_outside (m : Memory) (job : RowJob) (bytes : List Byte) (a : Nat)
    (h : a < rowAddress job.slot job.row ∨ rowAddress job.slot job.row + bytes.length ≤ a) :
    Memory.read storeDefault (putRow m job bytes) a = Memory.read storeDefault m a :=
  Memory.read_writeList_outside _ _ _ _ h

/-- A row program puts its bytes down. -/
theorem putRow_inside (m : Memory) (job : RowJob) (bytes : List Byte) (i : Nat) (h : Memory.wf storeDefault m)
    (hi : i < bytes.length) :
    Memory.read storeDefault (putRow m job bytes) (rowAddress job.slot job.row + i) = bytes[i] :=
  Memory.read_writeList_inside _ _ _ _ h hi

/-- A row program keeps the canonical form. -/
theorem putRow_wf (m : Memory) (job : RowJob) (bytes : List Byte) (h : Memory.wf storeDefault m) :
    Memory.wf storeDefault (putRow m job bytes) := Memory.wf_writeList _ _ _ h

/-- Putting a whole slot down keeps the canonical form. -/
theorem putSlot_wf (m : Memory) (slot : Nat) (bytes : List Byte) (h : Memory.wf storeDefault m) :
    Memory.wf storeDefault (putSlot m slot bytes) := Memory.wf_writeList _ _ _ (eraseSlot_wf m slot h)

/-- Putting a whole slot down changes no byte outside the slot. -/
theorem putSlot_outside (m : Memory) (slot a : Nat) (bytes : List Byte) (hb : bytes.length ≤ 2048)
    (h : inSlot slot a = false) :
    Memory.read storeDefault (putSlot m slot bytes) a = Memory.read storeDefault m a := by
  have hr : a < rowAddress slot 0 ∨ rowAddress slot 0 + bytes.length ≤ a := by
    unfold inSlot at h; unfold rowAddress
    have h := of_decide_eq_false h
    omega
  unfold putSlot
  rw [Memory.read_writeList_outside _ _ _ _ hr, eraseSlot_outside _ _ _ h]

/-- R149 step 1: a slot is erased exactly when every byte of it reads 0xFF. -/
theorem slotErased_iff (m : Memory) (slot : Nat) (h : Memory.wf storeDefault m) :
    slotErased m slot = true ↔ ∀ a, inSlot slot a = true → Memory.read storeDefault m a = 0xFF#8 := by
  constructor
  · intro he a ha
    rw [Memory.read_unlisted]
    · rfl
    · intro c hc
      rintro rfl
      have := List.all_eq_true.mp he c hc
      simp [ha] at this
  · intro hr
    refine List.all_eq_true.mpr fun c hc => ?_
    cases hs : inSlot slot c.1 with
    | false => rfl
    | true =>
      exfalso
      have hread : Memory.read storeDefault m c.1 = c.2 := by
        clear hr hs
        induction m with
        | nil => simp at hc
        | cons e m ih =>
          rw [Memory.read_cons]
          rcases List.mem_cons.mp hc with rfl | hc
          · simp
          · rw [if_neg (by have := Memory.wf_head h c hc; omega)]
            exact ih (Memory.wf_tail h) hc
      exact h.2 c hc (hread.symm.trans (hr c.1 hs))

end Sys2Proof.Machine
end

