-- ==== Sys2Proof/Laws/State.lean ====
section
/-! SUPPORT. One lemma per field per update of the state records: what an update leaves and what it sets, so that no
proof unfolds a record update. -/

namespace Sys2Proof.Machine

-- One after another: hundreds of small theorems at once would want a thread each.
set_option Elab.async false


/-! ### State: stations -/

@[simp] theorem State.setStation_unitAddr (s : State) (n : StationIx) (st : Station) :
    (s.setStation n st).unitAddr = s.unitAddr := rfl
@[simp] theorem State.setStation_lineRate (s : State) (n : StationIx) (st : Station) :
    (s.setStation n st).lineRate = s.lineRate := rfl
@[simp] theorem State.setStation_receiver (s : State) (n : StationIx) (st : Station) :
    (s.setStation n st).receiver = s.receiver := rfl
@[simp] theorem State.setStation_quietLeft (s : State) (n : StationIx) (st : Station) :
    (s.setStation n st).quietLeft = s.quietLeft := rfl
@[simp] theorem State.setStation_answer (s : State) (n : StationIx) (st : Station) :
    (s.setStation n st).answer = s.answer := rfl
@[simp] theorem State.setStation_checkFails (s : State) (n : StationIx) (st : Station) :
    (s.setStation n st).checkFails = s.checkFails := rfl
@[simp] theorem State.setStation_framingErrors (s : State) (n : StationIx) (st : Station) :
    (s.setStation n st).framingErrors = s.framingErrors := rfl
@[simp] theorem State.setStation_refusals (s : State) (n : StationIx) (st : Station) :
    (s.setStation n st).refusals = s.refusals := rfl
@[simp] theorem State.setStation_stations (s : State) (n : StationIx) (st : Station) :
    (s.setStation n st).stations = s.stations.set n.1 st n.2 := rfl
@[simp] theorem State.setStation_classes (s : State) (n : StationIx) (st : Station) :
    (s.setStation n st).classes = s.classes := rfl
@[simp] theorem State.setStation_keyMaps (s : State) (n : StationIx) (st : Station) :
    (s.setStation n st).keyMaps = s.keyMaps := rfl
@[simp] theorem State.setStation_rq (s : State) (n : StationIx) (st : Station) :
    (s.setStation n st).rq = s.rq := rfl
@[simp] theorem State.setStation_store (s : State) (n : StationIx) (st : Station) :
    (s.setStation n st).store = s.store := rfl
@[simp] theorem State.setStation_causes (s : State) (n : StationIx) (st : Station) :
    (s.setStation n st).causes = s.causes := rfl
@[simp] theorem State.setStation_stationMask (s : State) (n : StationIx) (st : Station) :
    (s.setStation n st).stationMask = s.stationMask := rfl
@[simp] theorem State.setStation_ctlMask (s : State) (n : StationIx) (st : Station) :
    (s.setStation n st).ctlMask = s.ctlMask := rfl
@[simp] theorem State.setStation_freeCount (s : State) (n : StationIx) (st : Station) :
    (s.setStation n st).freeCount = s.freeCount := rfl
@[simp] theorem State.setStation_pending (s : State) (n : StationIx) (st : Station) :
    (s.setStation n st).pending = s.pending := rfl
@[simp] theorem State.onStation_unitAddr (s : State) (n : StationIx) (f : Station → Station) :
    (s.onStation n f).unitAddr = s.unitAddr := rfl
@[simp] theorem State.onStation_lineRate (s : State) (n : StationIx) (f : Station → Station) :
    (s.onStation n f).lineRate = s.lineRate := rfl
@[simp] theorem State.onStation_receiver (s : State) (n : StationIx) (f : Station → Station) :
    (s.onStation n f).receiver = s.receiver := rfl
@[simp] theorem State.onStation_quietLeft (s : State) (n : StationIx) (f : Station → Station) :
    (s.onStation n f).quietLeft = s.quietLeft := rfl
@[simp] theorem State.onStation_answer (s : State) (n : StationIx) (f : Station → Station) :
    (s.onStation n f).answer = s.answer := rfl
@[simp] theorem State.onStation_checkFails (s : State) (n : StationIx) (f : Station → Station) :
    (s.onStation n f).checkFails = s.checkFails := rfl
@[simp] theorem State.onStation_framingErrors (s : State) (n : StationIx) (f : Station → Station) :
    (s.onStation n f).framingErrors = s.framingErrors := rfl
@[simp] theorem State.onStation_refusals (s : State) (n : StationIx) (f : Station → Station) :
    (s.onStation n f).refusals = s.refusals := rfl
@[simp] theorem State.onStation_stations (s : State) (n : StationIx) (f : Station → Station) :
    (s.onStation n f).stations = s.stations.set n.1 (f (s.station n)) n.2 := rfl
@[simp] theorem State.onStation_classes (s : State) (n : StationIx) (f : Station → Station) :
    (s.onStation n f).classes = s.classes := rfl
@[simp] theorem State.onStation_keyMaps (s : State) (n : StationIx) (f : Station → Station) :
    (s.onStation n f).keyMaps = s.keyMaps := rfl
@[simp] theorem State.onStation_rq (s : State) (n : StationIx) (f : Station → Station) :
    (s.onStation n f).rq = s.rq := rfl
@[simp] theorem State.onStation_store (s : State) (n : StationIx) (f : Station → Station) :
    (s.onStation n f).store = s.store := rfl
@[simp] theorem State.onStation_causes (s : State) (n : StationIx) (f : Station → Station) :
    (s.onStation n f).causes = s.causes := rfl
@[simp] theorem State.onStation_stationMask (s : State) (n : StationIx) (f : Station → Station) :
    (s.onStation n f).stationMask = s.stationMask := rfl
@[simp] theorem State.onStation_ctlMask (s : State) (n : StationIx) (f : Station → Station) :
    (s.onStation n f).ctlMask = s.ctlMask := rfl
@[simp] theorem State.onStation_freeCount (s : State) (n : StationIx) (f : Station → Station) :
    (s.onStation n f).freeCount = s.freeCount := rfl
@[simp] theorem State.onStation_pending (s : State) (n : StationIx) (f : Station → Station) :
    (s.onStation n f).pending = s.pending := rfl

/-! ### State: the store -/

@[simp] theorem State.setStore_unitAddr (s : State) (st : Store) :
    (s.setStore st).unitAddr = s.unitAddr := rfl
@[simp] theorem State.setStore_lineRate (s : State) (st : Store) :
    (s.setStore st).lineRate = s.lineRate := rfl
@[simp] theorem State.setStore_receiver (s : State) (st : Store) :
    (s.setStore st).receiver = s.receiver := rfl
@[simp] theorem State.setStore_quietLeft (s : State) (st : Store) :
    (s.setStore st).quietLeft = s.quietLeft := rfl
@[simp] theorem State.setStore_answer (s : State) (st : Store) :
    (s.setStore st).answer = s.answer := rfl
@[simp] theorem State.setStore_checkFails (s : State) (st : Store) :
    (s.setStore st).checkFails = s.checkFails := rfl
@[simp] theorem State.setStore_framingErrors (s : State) (st : Store) :
    (s.setStore st).framingErrors = s.framingErrors := rfl
@[simp] theorem State.setStore_refusals (s : State) (st : Store) :
    (s.setStore st).refusals = s.refusals := rfl
@[simp] theorem State.setStore_stations (s : State) (st : Store) :
    (s.setStore st).stations = s.stations := rfl
@[simp] theorem State.setStore_classes (s : State) (st : Store) :
    (s.setStore st).classes = s.classes := rfl
@[simp] theorem State.setStore_keyMaps (s : State) (st : Store) :
    (s.setStore st).keyMaps = s.keyMaps := rfl
@[simp] theorem State.setStore_rq (s : State) (st : Store) :
    (s.setStore st).rq = s.rq := rfl
@[simp] theorem State.setStore_store (s : State) (st : Store) :
    (s.setStore st).store = st := rfl
@[simp] theorem State.setStore_causes (s : State) (st : Store) :
    (s.setStore st).causes = s.causes := rfl
@[simp] theorem State.setStore_stationMask (s : State) (st : Store) :
    (s.setStore st).stationMask = s.stationMask := rfl
@[simp] theorem State.setStore_ctlMask (s : State) (st : Store) :
    (s.setStore st).ctlMask = s.ctlMask := rfl
@[simp] theorem State.setStore_freeCount (s : State) (st : Store) :
    (s.setStore st).freeCount = s.freeCount := rfl
@[simp] theorem State.setStore_pending (s : State) (st : Store) :
    (s.setStore st).pending = s.pending := rfl

/-! ### State: the attention register -/

@[simp] theorem State.raiseAt_unitAddr (s : State) (i : Fin 13) (bits : Byte) :
    (s.raiseAt i bits).unitAddr = s.unitAddr := rfl
@[simp] theorem State.raiseAt_lineRate (s : State) (i : Fin 13) (bits : Byte) :
    (s.raiseAt i bits).lineRate = s.lineRate := rfl
@[simp] theorem State.raiseAt_receiver (s : State) (i : Fin 13) (bits : Byte) :
    (s.raiseAt i bits).receiver = s.receiver := rfl
@[simp] theorem State.raiseAt_quietLeft (s : State) (i : Fin 13) (bits : Byte) :
    (s.raiseAt i bits).quietLeft = s.quietLeft := rfl
@[simp] theorem State.raiseAt_answer (s : State) (i : Fin 13) (bits : Byte) :
    (s.raiseAt i bits).answer = s.answer := rfl
@[simp] theorem State.raiseAt_checkFails (s : State) (i : Fin 13) (bits : Byte) :
    (s.raiseAt i bits).checkFails = s.checkFails := rfl
@[simp] theorem State.raiseAt_framingErrors (s : State) (i : Fin 13) (bits : Byte) :
    (s.raiseAt i bits).framingErrors = s.framingErrors := rfl
@[simp] theorem State.raiseAt_refusals (s : State) (i : Fin 13) (bits : Byte) :
    (s.raiseAt i bits).refusals = s.refusals := rfl
@[simp] theorem State.raiseAt_stations (s : State) (i : Fin 13) (bits : Byte) :
    (s.raiseAt i bits).stations = s.stations := rfl
@[simp] theorem State.raiseAt_classes (s : State) (i : Fin 13) (bits : Byte) :
    (s.raiseAt i bits).classes = s.classes := rfl
@[simp] theorem State.raiseAt_keyMaps (s : State) (i : Fin 13) (bits : Byte) :
    (s.raiseAt i bits).keyMaps = s.keyMaps := rfl
@[simp] theorem State.raiseAt_rq (s : State) (i : Fin 13) (bits : Byte) :
    (s.raiseAt i bits).rq = s.rq := rfl
@[simp] theorem State.raiseAt_store (s : State) (i : Fin 13) (bits : Byte) :
    (s.raiseAt i bits).store = s.store := rfl
@[simp] theorem State.raiseAt_causes (s : State) (i : Fin 13) (bits : Byte) :
    (s.raiseAt i bits).causes = s.causes.set i.1 (s.causes[i] ||| bits) i.2 := rfl
@[simp] theorem State.raiseAt_stationMask (s : State) (i : Fin 13) (bits : Byte) :
    (s.raiseAt i bits).stationMask = s.stationMask := rfl
@[simp] theorem State.raiseAt_ctlMask (s : State) (i : Fin 13) (bits : Byte) :
    (s.raiseAt i bits).ctlMask = s.ctlMask := rfl
@[simp] theorem State.raiseAt_freeCount (s : State) (i : Fin 13) (bits : Byte) :
    (s.raiseAt i bits).freeCount = s.freeCount := rfl
@[simp] theorem State.raiseAt_pending (s : State) (i : Fin 13) (bits : Byte) :
    (s.raiseAt i bits).pending = s.pending := rfl
@[simp] theorem State.raise_unitAddr (s : State) (n : StationIx) (bits : Byte) :
    (s.raise n bits).unitAddr = s.unitAddr := rfl
@[simp] theorem State.raise_lineRate (s : State) (n : StationIx) (bits : Byte) :
    (s.raise n bits).lineRate = s.lineRate := rfl
@[simp] theorem State.raise_receiver (s : State) (n : StationIx) (bits : Byte) :
    (s.raise n bits).receiver = s.receiver := rfl
@[simp] theorem State.raise_quietLeft (s : State) (n : StationIx) (bits : Byte) :
    (s.raise n bits).quietLeft = s.quietLeft := rfl
@[simp] theorem State.raise_answer (s : State) (n : StationIx) (bits : Byte) :
    (s.raise n bits).answer = s.answer := rfl
@[simp] theorem State.raise_checkFails (s : State) (n : StationIx) (bits : Byte) :
    (s.raise n bits).checkFails = s.checkFails := rfl
@[simp] theorem State.raise_framingErrors (s : State) (n : StationIx) (bits : Byte) :
    (s.raise n bits).framingErrors = s.framingErrors := rfl
@[simp] theorem State.raise_refusals (s : State) (n : StationIx) (bits : Byte) :
    (s.raise n bits).refusals = s.refusals := rfl
@[simp] theorem State.raise_stations (s : State) (n : StationIx) (bits : Byte) :
    (s.raise n bits).stations = s.stations := rfl
@[simp] theorem State.raise_classes (s : State) (n : StationIx) (bits : Byte) :
    (s.raise n bits).classes = s.classes := rfl
@[simp] theorem State.raise_keyMaps (s : State) (n : StationIx) (bits : Byte) :
    (s.raise n bits).keyMaps = s.keyMaps := rfl
@[simp] theorem State.raise_rq (s : State) (n : StationIx) (bits : Byte) :
    (s.raise n bits).rq = s.rq := rfl
@[simp] theorem State.raise_store (s : State) (n : StationIx) (bits : Byte) :
    (s.raise n bits).store = s.store := rfl
@[simp] theorem State.raise_causes (s : State) (n : StationIx) (bits : Byte) :
    (s.raise n bits).causes = s.causes.set (causeIx n).1 (s.causes[causeIx n] ||| bits) (causeIx n).2 := rfl
@[simp] theorem State.raise_stationMask (s : State) (n : StationIx) (bits : Byte) :
    (s.raise n bits).stationMask = s.stationMask := rfl
@[simp] theorem State.raise_ctlMask (s : State) (n : StationIx) (bits : Byte) :
    (s.raise n bits).ctlMask = s.ctlMask := rfl
@[simp] theorem State.raise_freeCount (s : State) (n : StationIx) (bits : Byte) :
    (s.raise n bits).freeCount = s.freeCount := rfl
@[simp] theorem State.raise_pending (s : State) (n : StationIx) (bits : Byte) :
    (s.raise n bits).pending = s.pending := rfl
@[simp] theorem State.raiseCtl_unitAddr (s : State) (bits : Byte) :
    (s.raiseCtl bits).unitAddr = s.unitAddr := rfl
@[simp] theorem State.raiseCtl_lineRate (s : State) (bits : Byte) :
    (s.raiseCtl bits).lineRate = s.lineRate := rfl
@[simp] theorem State.raiseCtl_receiver (s : State) (bits : Byte) :
    (s.raiseCtl bits).receiver = s.receiver := rfl
@[simp] theorem State.raiseCtl_quietLeft (s : State) (bits : Byte) :
    (s.raiseCtl bits).quietLeft = s.quietLeft := rfl
@[simp] theorem State.raiseCtl_answer (s : State) (bits : Byte) :
    (s.raiseCtl bits).answer = s.answer := rfl
@[simp] theorem State.raiseCtl_checkFails (s : State) (bits : Byte) :
    (s.raiseCtl bits).checkFails = s.checkFails := rfl
@[simp] theorem State.raiseCtl_framingErrors (s : State) (bits : Byte) :
    (s.raiseCtl bits).framingErrors = s.framingErrors := rfl
@[simp] theorem State.raiseCtl_refusals (s : State) (bits : Byte) :
    (s.raiseCtl bits).refusals = s.refusals := rfl
@[simp] theorem State.raiseCtl_stations (s : State) (bits : Byte) :
    (s.raiseCtl bits).stations = s.stations := rfl
@[simp] theorem State.raiseCtl_classes (s : State) (bits : Byte) :
    (s.raiseCtl bits).classes = s.classes := rfl
@[simp] theorem State.raiseCtl_keyMaps (s : State) (bits : Byte) :
    (s.raiseCtl bits).keyMaps = s.keyMaps := rfl
@[simp] theorem State.raiseCtl_rq (s : State) (bits : Byte) :
    (s.raiseCtl bits).rq = s.rq := rfl
@[simp] theorem State.raiseCtl_store (s : State) (bits : Byte) :
    (s.raiseCtl bits).store = s.store := rfl
@[simp] theorem State.raiseCtl_causes (s : State) (bits : Byte) :
    (s.raiseCtl bits).causes = s.causes.set 0 (s.causes[0] ||| bits) := rfl
@[simp] theorem State.raiseCtl_stationMask (s : State) (bits : Byte) :
    (s.raiseCtl bits).stationMask = s.stationMask := rfl
@[simp] theorem State.raiseCtl_ctlMask (s : State) (bits : Byte) :
    (s.raiseCtl bits).ctlMask = s.ctlMask := rfl
@[simp] theorem State.raiseCtl_freeCount (s : State) (bits : Byte) :
    (s.raiseCtl bits).freeCount = s.freeCount := rfl
@[simp] theorem State.raiseCtl_pending (s : State) (bits : Byte) :
    (s.raiseCtl bits).pending = s.pending := rfl
@[simp] theorem State.clearCauses_unitAddr (s : State) (i : Fin 13) (octet : Byte) :
    (s.clearCauses i octet).unitAddr = s.unitAddr := rfl
@[simp] theorem State.clearCauses_lineRate (s : State) (i : Fin 13) (octet : Byte) :
    (s.clearCauses i octet).lineRate = s.lineRate := rfl
@[simp] theorem State.clearCauses_receiver (s : State) (i : Fin 13) (octet : Byte) :
    (s.clearCauses i octet).receiver = s.receiver := rfl
@[simp] theorem State.clearCauses_quietLeft (s : State) (i : Fin 13) (octet : Byte) :
    (s.clearCauses i octet).quietLeft = s.quietLeft := rfl
@[simp] theorem State.clearCauses_answer (s : State) (i : Fin 13) (octet : Byte) :
    (s.clearCauses i octet).answer = s.answer := rfl
@[simp] theorem State.clearCauses_checkFails (s : State) (i : Fin 13) (octet : Byte) :
    (s.clearCauses i octet).checkFails = s.checkFails := rfl
@[simp] theorem State.clearCauses_framingErrors (s : State) (i : Fin 13) (octet : Byte) :
    (s.clearCauses i octet).framingErrors = s.framingErrors := rfl
@[simp] theorem State.clearCauses_refusals (s : State) (i : Fin 13) (octet : Byte) :
    (s.clearCauses i octet).refusals = s.refusals := rfl
@[simp] theorem State.clearCauses_stations (s : State) (i : Fin 13) (octet : Byte) :
    (s.clearCauses i octet).stations = s.stations := rfl
@[simp] theorem State.clearCauses_classes (s : State) (i : Fin 13) (octet : Byte) :
    (s.clearCauses i octet).classes = s.classes := rfl
@[simp] theorem State.clearCauses_keyMaps (s : State) (i : Fin 13) (octet : Byte) :
    (s.clearCauses i octet).keyMaps = s.keyMaps := rfl
@[simp] theorem State.clearCauses_rq (s : State) (i : Fin 13) (octet : Byte) :
    (s.clearCauses i octet).rq = s.rq := rfl
@[simp] theorem State.clearCauses_store (s : State) (i : Fin 13) (octet : Byte) :
    (s.clearCauses i octet).store = s.store := rfl
@[simp] theorem State.clearCauses_causes (s : State) (i : Fin 13) (octet : Byte) :
    (s.clearCauses i octet).causes = s.causes.set i.1 (s.causes[i] &&& ~~~(octet &&& causeBits i)) i.2 := rfl
@[simp] theorem State.clearCauses_stationMask (s : State) (i : Fin 13) (octet : Byte) :
    (s.clearCauses i octet).stationMask = s.stationMask := rfl
@[simp] theorem State.clearCauses_ctlMask (s : State) (i : Fin 13) (octet : Byte) :
    (s.clearCauses i octet).ctlMask = s.ctlMask := rfl
@[simp] theorem State.clearCauses_freeCount (s : State) (i : Fin 13) (octet : Byte) :
    (s.clearCauses i octet).freeCount = s.freeCount := rfl
@[simp] theorem State.clearCauses_pending (s : State) (i : Fin 13) (octet : Byte) :
    (s.clearCauses i octet).pending = s.pending := rfl

/-! ### State: the host line -/

@[simp] theorem State.hunt_unitAddr (s : State) :
    (s.hunt).unitAddr = s.unitAddr := rfl
@[simp] theorem State.hunt_lineRate (s : State) :
    (s.hunt).lineRate = s.lineRate := rfl
@[simp] theorem State.hunt_receiver (s : State) :
    (s.hunt).receiver = .hunting := rfl
@[simp] theorem State.hunt_quietLeft (s : State) :
    (s.hunt).quietLeft = s.quietLeft := rfl
@[simp] theorem State.hunt_answer (s : State) :
    (s.hunt).answer = s.answer := rfl
@[simp] theorem State.hunt_checkFails (s : State) :
    (s.hunt).checkFails = s.checkFails := rfl
@[simp] theorem State.hunt_framingErrors (s : State) :
    (s.hunt).framingErrors = s.framingErrors := rfl
@[simp] theorem State.hunt_refusals (s : State) :
    (s.hunt).refusals = s.refusals := rfl
@[simp] theorem State.hunt_stations (s : State) :
    (s.hunt).stations = s.stations := rfl
@[simp] theorem State.hunt_classes (s : State) :
    (s.hunt).classes = s.classes := rfl
@[simp] theorem State.hunt_keyMaps (s : State) :
    (s.hunt).keyMaps = s.keyMaps := rfl
@[simp] theorem State.hunt_rq (s : State) :
    (s.hunt).rq = s.rq := rfl
@[simp] theorem State.hunt_store (s : State) :
    (s.hunt).store = s.store := rfl
@[simp] theorem State.hunt_causes (s : State) :
    (s.hunt).causes = s.causes := rfl
@[simp] theorem State.hunt_stationMask (s : State) :
    (s.hunt).stationMask = s.stationMask := rfl
@[simp] theorem State.hunt_ctlMask (s : State) :
    (s.hunt).ctlMask = s.ctlMask := rfl
@[simp] theorem State.hunt_freeCount (s : State) :
    (s.hunt).freeCount = s.freeCount := rfl
@[simp] theorem State.hunt_pending (s : State) :
    (s.hunt).pending = s.pending := rfl
@[simp] theorem State.byteSeen_unitAddr (s : State) :
    (s.byteSeen).unitAddr = s.unitAddr := rfl
@[simp] theorem State.byteSeen_lineRate (s : State) :
    (s.byteSeen).lineRate = s.lineRate := rfl
@[simp] theorem State.byteSeen_receiver (s : State) :
    (s.byteSeen).receiver = s.receiver := rfl
@[simp] theorem State.byteSeen_quietLeft (s : State) :
    (s.byteSeen).quietLeft = 2 := rfl
@[simp] theorem State.byteSeen_answer (s : State) :
    (s.byteSeen).answer = none := rfl
@[simp] theorem State.byteSeen_checkFails (s : State) :
    (s.byteSeen).checkFails = s.checkFails := rfl
@[simp] theorem State.byteSeen_framingErrors (s : State) :
    (s.byteSeen).framingErrors = s.framingErrors := rfl
@[simp] theorem State.byteSeen_refusals (s : State) :
    (s.byteSeen).refusals = s.refusals := rfl
@[simp] theorem State.byteSeen_stations (s : State) :
    (s.byteSeen).stations = s.stations := rfl
@[simp] theorem State.byteSeen_classes (s : State) :
    (s.byteSeen).classes = s.classes := rfl
@[simp] theorem State.byteSeen_keyMaps (s : State) :
    (s.byteSeen).keyMaps = s.keyMaps := rfl
@[simp] theorem State.byteSeen_rq (s : State) :
    (s.byteSeen).rq = s.rq := rfl
@[simp] theorem State.byteSeen_store (s : State) :
    (s.byteSeen).store = s.store := rfl
@[simp] theorem State.byteSeen_causes (s : State) :
    (s.byteSeen).causes = s.causes := rfl
@[simp] theorem State.byteSeen_stationMask (s : State) :
    (s.byteSeen).stationMask = s.stationMask := rfl
@[simp] theorem State.byteSeen_ctlMask (s : State) :
    (s.byteSeen).ctlMask = s.ctlMask := rfl
@[simp] theorem State.byteSeen_freeCount (s : State) :
    (s.byteSeen).freeCount = s.freeCount := rfl
@[simp] theorem State.byteSeen_pending (s : State) :
    (s.byteSeen).pending = s.pending := rfl
@[simp] theorem State.abortFrame_unitAddr (s : State) :
    (s.abortFrame).unitAddr = s.unitAddr := rfl
@[simp] theorem State.abortFrame_lineRate (s : State) :
    (s.abortFrame).lineRate = s.lineRate := rfl
@[simp] theorem State.abortFrame_receiver (s : State) :
    (s.abortFrame).receiver = .hunting := rfl
@[simp] theorem State.abortFrame_quietLeft (s : State) :
    (s.abortFrame).quietLeft = s.quietLeft := rfl
@[simp] theorem State.abortFrame_answer (s : State) :
    (s.abortFrame).answer = s.answer := rfl
@[simp] theorem State.abortFrame_checkFails (s : State) :
    (s.abortFrame).checkFails = s.checkFails := rfl
@[simp] theorem State.abortFrame_framingErrors (s : State) :
    (s.abortFrame).framingErrors = s.framingErrors + 1 := rfl
@[simp] theorem State.abortFrame_refusals (s : State) :
    (s.abortFrame).refusals = s.refusals := rfl
@[simp] theorem State.abortFrame_stations (s : State) :
    (s.abortFrame).stations = s.stations := rfl
@[simp] theorem State.abortFrame_classes (s : State) :
    (s.abortFrame).classes = s.classes := rfl
@[simp] theorem State.abortFrame_keyMaps (s : State) :
    (s.abortFrame).keyMaps = s.keyMaps := rfl
@[simp] theorem State.abortFrame_rq (s : State) :
    (s.abortFrame).rq = s.rq := rfl
@[simp] theorem State.abortFrame_store (s : State) :
    (s.abortFrame).store = s.store := rfl
@[simp] theorem State.abortFrame_causes (s : State) :
    (s.abortFrame).causes = s.causes := rfl
@[simp] theorem State.abortFrame_stationMask (s : State) :
    (s.abortFrame).stationMask = s.stationMask := rfl
@[simp] theorem State.abortFrame_ctlMask (s : State) :
    (s.abortFrame).ctlMask = s.ctlMask := rfl
@[simp] theorem State.abortFrame_freeCount (s : State) :
    (s.abortFrame).freeCount = s.freeCount := rfl
@[simp] theorem State.abortFrame_pending (s : State) :
    (s.abortFrame).pending = s.pending := rfl
@[simp] theorem State.advanceAnswer_unitAddr (s : State) :
    (s.advanceAnswer).unitAddr = s.unitAddr := rfl
@[simp] theorem State.advanceAnswer_lineRate (s : State) :
    (s.advanceAnswer).lineRate = s.lineRate := rfl
@[simp] theorem State.advanceAnswer_receiver (s : State) :
    (s.advanceAnswer).receiver = s.receiver := rfl
@[simp] theorem State.advanceAnswer_quietLeft (s : State) :
    (s.advanceAnswer).quietLeft = 2 := rfl
@[simp] theorem State.advanceAnswer_answer (s : State) :
    (s.advanceAnswer).answer = s.answer.map fun a => { a with readBack := a.readBack + 1 } := rfl
@[simp] theorem State.advanceAnswer_checkFails (s : State) :
    (s.advanceAnswer).checkFails = s.checkFails := rfl
@[simp] theorem State.advanceAnswer_framingErrors (s : State) :
    (s.advanceAnswer).framingErrors = s.framingErrors := rfl
@[simp] theorem State.advanceAnswer_refusals (s : State) :
    (s.advanceAnswer).refusals = s.refusals := rfl
@[simp] theorem State.advanceAnswer_stations (s : State) :
    (s.advanceAnswer).stations = s.stations := rfl
@[simp] theorem State.advanceAnswer_classes (s : State) :
    (s.advanceAnswer).classes = s.classes := rfl
@[simp] theorem State.advanceAnswer_keyMaps (s : State) :
    (s.advanceAnswer).keyMaps = s.keyMaps := rfl
@[simp] theorem State.advanceAnswer_rq (s : State) :
    (s.advanceAnswer).rq = s.rq := rfl
@[simp] theorem State.advanceAnswer_store (s : State) :
    (s.advanceAnswer).store = s.store := rfl
@[simp] theorem State.advanceAnswer_causes (s : State) :
    (s.advanceAnswer).causes = s.causes := rfl
@[simp] theorem State.advanceAnswer_stationMask (s : State) :
    (s.advanceAnswer).stationMask = s.stationMask := rfl
@[simp] theorem State.advanceAnswer_ctlMask (s : State) :
    (s.advanceAnswer).ctlMask = s.ctlMask := rfl
@[simp] theorem State.advanceAnswer_freeCount (s : State) :
    (s.advanceAnswer).freeCount = s.freeCount := rfl
@[simp] theorem State.advanceAnswer_pending (s : State) :
    (s.advanceAnswer).pending = s.pending := rfl
@[simp] theorem State.respond_unitAddr (s : State) (station : Byte) (r : Reply) :
    (s.respond station r).unitAddr = s.unitAddr := rfl
@[simp] theorem State.respond_lineRate (s : State) (station : Byte) (r : Reply) :
    (s.respond station r).lineRate = s.lineRate := rfl
@[simp] theorem State.respond_receiver (s : State) (station : Byte) (r : Reply) :
    (s.respond station r).receiver = s.receiver := rfl
@[simp] theorem State.respond_quietLeft (s : State) (station : Byte) (r : Reply) :
    (s.respond station r).quietLeft = s.quietLeft := rfl
@[simp] theorem State.respond_answer (s : State) (station : Byte) (r : Reply) :
    (s.respond station r).answer = some ⟨s.unitAddr, r.station.getD station, r.kind, s.statusOctet, r.payload, r.restart, false, 0⟩ := rfl
@[simp] theorem State.respond_checkFails (s : State) (station : Byte) (r : Reply) :
    (s.respond station r).checkFails = s.checkFails := rfl
@[simp] theorem State.respond_framingErrors (s : State) (station : Byte) (r : Reply) :
    (s.respond station r).framingErrors = s.framingErrors := rfl
@[simp] theorem State.respond_refusals (s : State) (station : Byte) (r : Reply) :
    (s.respond station r).refusals = if r.kind = .refuse then s.refusals + 1 else s.refusals := rfl
@[simp] theorem State.respond_stations (s : State) (station : Byte) (r : Reply) :
    (s.respond station r).stations = s.stations := rfl
@[simp] theorem State.respond_classes (s : State) (station : Byte) (r : Reply) :
    (s.respond station r).classes = s.classes := rfl
@[simp] theorem State.respond_keyMaps (s : State) (station : Byte) (r : Reply) :
    (s.respond station r).keyMaps = s.keyMaps := rfl
@[simp] theorem State.respond_rq (s : State) (station : Byte) (r : Reply) :
    (s.respond station r).rq = s.rq := rfl
@[simp] theorem State.respond_store (s : State) (station : Byte) (r : Reply) :
    (s.respond station r).store = s.store := rfl
@[simp] theorem State.respond_causes (s : State) (station : Byte) (r : Reply) :
    (s.respond station r).causes = s.causes := rfl
@[simp] theorem State.respond_stationMask (s : State) (station : Byte) (r : Reply) :
    (s.respond station r).stationMask = s.stationMask := rfl
@[simp] theorem State.respond_ctlMask (s : State) (station : Byte) (r : Reply) :
    (s.respond station r).ctlMask = s.ctlMask := rfl
@[simp] theorem State.respond_freeCount (s : State) (station : Byte) (r : Reply) :
    (s.respond station r).freeCount = s.freeCount := rfl
@[simp] theorem State.respond_pending (s : State) (station : Byte) (r : Reply) :
    (s.respond station r).pending = s.pending := rfl

/-! ### State: releases, tables, free values -/

@[simp] theorem State.setEntries_unitAddr (s : State) (a : Nat) (bytes : List Byte) :
    (s.setEntries a bytes).unitAddr = s.unitAddr := rfl
@[simp] theorem State.setEntries_lineRate (s : State) (a : Nat) (bytes : List Byte) :
    (s.setEntries a bytes).lineRate = s.lineRate := rfl
@[simp] theorem State.setEntries_receiver (s : State) (a : Nat) (bytes : List Byte) :
    (s.setEntries a bytes).receiver = s.receiver := rfl
@[simp] theorem State.setEntries_quietLeft (s : State) (a : Nat) (bytes : List Byte) :
    (s.setEntries a bytes).quietLeft = s.quietLeft := rfl
@[simp] theorem State.setEntries_answer (s : State) (a : Nat) (bytes : List Byte) :
    (s.setEntries a bytes).answer = s.answer := rfl
@[simp] theorem State.setEntries_checkFails (s : State) (a : Nat) (bytes : List Byte) :
    (s.setEntries a bytes).checkFails = s.checkFails := rfl
@[simp] theorem State.setEntries_framingErrors (s : State) (a : Nat) (bytes : List Byte) :
    (s.setEntries a bytes).framingErrors = s.framingErrors := rfl
@[simp] theorem State.setEntries_refusals (s : State) (a : Nat) (bytes : List Byte) :
    (s.setEntries a bytes).refusals = s.refusals := rfl
@[simp] theorem State.setEntries_stations (s : State) (a : Nat) (bytes : List Byte) :
    (s.setEntries a bytes).stations = s.stations := rfl
@[simp] theorem State.setEntries_classes (s : State) (a : Nat) (bytes : List Byte) :
    (s.setEntries a bytes).classes = s.classes := rfl
@[simp] theorem State.setEntries_keyMaps (s : State) (a : Nat) (bytes : List Byte) :
    (s.setEntries a bytes).keyMaps = Memory.writeList mapDefault s.keyMaps a bytes := rfl
@[simp] theorem State.setEntries_rq (s : State) (a : Nat) (bytes : List Byte) :
    (s.setEntries a bytes).rq = s.rq := rfl
@[simp] theorem State.setEntries_store (s : State) (a : Nat) (bytes : List Byte) :
    (s.setEntries a bytes).store = s.store := rfl
@[simp] theorem State.setEntries_causes (s : State) (a : Nat) (bytes : List Byte) :
    (s.setEntries a bytes).causes = s.causes := rfl
@[simp] theorem State.setEntries_stationMask (s : State) (a : Nat) (bytes : List Byte) :
    (s.setEntries a bytes).stationMask = s.stationMask := rfl
@[simp] theorem State.setEntries_ctlMask (s : State) (a : Nat) (bytes : List Byte) :
    (s.setEntries a bytes).ctlMask = s.ctlMask := rfl
@[simp] theorem State.setEntries_freeCount (s : State) (a : Nat) (bytes : List Byte) :
    (s.setEntries a bytes).freeCount = s.freeCount := rfl
@[simp] theorem State.setEntries_pending (s : State) (a : Nat) (bytes : List Byte) :
    (s.setEntries a bytes).pending = s.pending := rfl
@[simp] theorem State.broadcast_unitAddr (s : State) (chars : List Byte) :
    (s.broadcast chars).unitAddr = s.unitAddr := rfl
@[simp] theorem State.broadcast_lineRate (s : State) (chars : List Byte) :
    (s.broadcast chars).lineRate = s.lineRate := rfl
@[simp] theorem State.broadcast_receiver (s : State) (chars : List Byte) :
    (s.broadcast chars).receiver = s.receiver := rfl
@[simp] theorem State.broadcast_quietLeft (s : State) (chars : List Byte) :
    (s.broadcast chars).quietLeft = s.quietLeft := rfl
@[simp] theorem State.broadcast_answer (s : State) (chars : List Byte) :
    (s.broadcast chars).answer = s.answer := rfl
@[simp] theorem State.broadcast_checkFails (s : State) (chars : List Byte) :
    (s.broadcast chars).checkFails = s.checkFails := rfl
@[simp] theorem State.broadcast_framingErrors (s : State) (chars : List Byte) :
    (s.broadcast chars).framingErrors = s.framingErrors := rfl
@[simp] theorem State.broadcast_refusals (s : State) (chars : List Byte) :
    (s.broadcast chars).refusals = s.refusals := rfl
@[simp] theorem State.broadcast_classes (s : State) (chars : List Byte) :
    (s.broadcast chars).classes = s.classes := rfl
@[simp] theorem State.broadcast_keyMaps (s : State) (chars : List Byte) :
    (s.broadcast chars).keyMaps = s.keyMaps := rfl
@[simp] theorem State.broadcast_rq (s : State) (chars : List Byte) :
    (s.broadcast chars).rq = s.rq := rfl
@[simp] theorem State.broadcast_store (s : State) (chars : List Byte) :
    (s.broadcast chars).store = s.store := rfl
@[simp] theorem State.broadcast_causes (s : State) (chars : List Byte) :
    (s.broadcast chars).causes = s.causes := rfl
@[simp] theorem State.broadcast_stationMask (s : State) (chars : List Byte) :
    (s.broadcast chars).stationMask = s.stationMask := rfl
@[simp] theorem State.broadcast_ctlMask (s : State) (chars : List Byte) :
    (s.broadcast chars).ctlMask = s.ctlMask := rfl
@[simp] theorem State.broadcast_freeCount (s : State) (chars : List Byte) :
    (s.broadcast chars).freeCount = s.freeCount := rfl
@[simp] theorem State.broadcast_pending (s : State) (chars : List Byte) :
    (s.broadcast chars).pending = s.pending := rfl
@[simp] theorem State.takeFree_unitAddr (s : State) (k : Nat) :
    (s.takeFree k).2.unitAddr = s.unitAddr := rfl
@[simp] theorem State.takeFree_lineRate (s : State) (k : Nat) :
    (s.takeFree k).2.lineRate = s.lineRate := rfl
@[simp] theorem State.takeFree_receiver (s : State) (k : Nat) :
    (s.takeFree k).2.receiver = s.receiver := rfl
@[simp] theorem State.takeFree_quietLeft (s : State) (k : Nat) :
    (s.takeFree k).2.quietLeft = s.quietLeft := rfl
@[simp] theorem State.takeFree_answer (s : State) (k : Nat) :
    (s.takeFree k).2.answer = s.answer := rfl
@[simp] theorem State.takeFree_checkFails (s : State) (k : Nat) :
    (s.takeFree k).2.checkFails = s.checkFails := rfl
@[simp] theorem State.takeFree_framingErrors (s : State) (k : Nat) :
    (s.takeFree k).2.framingErrors = s.framingErrors := rfl
@[simp] theorem State.takeFree_refusals (s : State) (k : Nat) :
    (s.takeFree k).2.refusals = s.refusals := rfl
@[simp] theorem State.takeFree_stations (s : State) (k : Nat) :
    (s.takeFree k).2.stations = s.stations := rfl
@[simp] theorem State.takeFree_classes (s : State) (k : Nat) :
    (s.takeFree k).2.classes = s.classes := rfl
@[simp] theorem State.takeFree_keyMaps (s : State) (k : Nat) :
    (s.takeFree k).2.keyMaps = s.keyMaps := rfl
@[simp] theorem State.takeFree_rq (s : State) (k : Nat) :
    (s.takeFree k).2.rq = s.rq := rfl
@[simp] theorem State.takeFree_store (s : State) (k : Nat) :
    (s.takeFree k).2.store = s.store := rfl
@[simp] theorem State.takeFree_causes (s : State) (k : Nat) :
    (s.takeFree k).2.causes = s.causes := rfl
@[simp] theorem State.takeFree_stationMask (s : State) (k : Nat) :
    (s.takeFree k).2.stationMask = s.stationMask := rfl
@[simp] theorem State.takeFree_ctlMask (s : State) (k : Nat) :
    (s.takeFree k).2.ctlMask = s.ctlMask := rfl
@[simp] theorem State.takeFree_freeCount (s : State) (k : Nat) :
    (s.takeFree k).2.freeCount = s.freeCount + k := rfl
@[simp] theorem State.takeFree_pending (s : State) (k : Nat) :
    (s.takeFree k).2.pending = s.pending := rfl

/-! ### State: the reset -/

@[simp] theorem State.abandonOp_unitAddr (s : State) :
    s.abandonOp.unitAddr = s.unitAddr := by
  unfold State.abandonOp; split <;> simp
@[simp] theorem State.abandonOp_lineRate (s : State) :
    s.abandonOp.lineRate = s.lineRate := by
  unfold State.abandonOp; split <;> simp
@[simp] theorem State.abandonOp_receiver (s : State) :
    s.abandonOp.receiver = s.receiver := by
  unfold State.abandonOp; split <;> simp
@[simp] theorem State.abandonOp_quietLeft (s : State) :
    s.abandonOp.quietLeft = s.quietLeft := by
  unfold State.abandonOp; split <;> simp
@[simp] theorem State.abandonOp_answer (s : State) :
    s.abandonOp.answer = s.answer := by
  unfold State.abandonOp; split <;> simp
@[simp] theorem State.abandonOp_checkFails (s : State) :
    s.abandonOp.checkFails = s.checkFails := by
  unfold State.abandonOp; split <;> simp
@[simp] theorem State.abandonOp_framingErrors (s : State) :
    s.abandonOp.framingErrors = s.framingErrors := by
  unfold State.abandonOp; split <;> simp
@[simp] theorem State.abandonOp_refusals (s : State) :
    s.abandonOp.refusals = s.refusals := by
  unfold State.abandonOp; split <;> simp
@[simp] theorem State.abandonOp_stations (s : State) :
    s.abandonOp.stations = s.stations := by
  unfold State.abandonOp; split <;> simp
@[simp] theorem State.abandonOp_classes (s : State) :
    s.abandonOp.classes = s.classes := by
  unfold State.abandonOp; split <;> simp
@[simp] theorem State.abandonOp_keyMaps (s : State) :
    s.abandonOp.keyMaps = s.keyMaps := by
  unfold State.abandonOp; split <;> simp
@[simp] theorem State.abandonOp_rq (s : State) :
    s.abandonOp.rq = s.rq := by
  unfold State.abandonOp; split <;> simp
@[simp] theorem State.abandonOp_causes (s : State) :
    s.abandonOp.causes = s.causes := by
  unfold State.abandonOp; split <;> simp
@[simp] theorem State.abandonOp_stationMask (s : State) :
    s.abandonOp.stationMask = s.stationMask := by
  unfold State.abandonOp; split <;> simp
@[simp] theorem State.abandonOp_ctlMask (s : State) :
    s.abandonOp.ctlMask = s.ctlMask := by
  unfold State.abandonOp; split <;> simp
@[simp] theorem State.abandonOp_pending (s : State) :
    s.abandonOp.pending = s.pending := by
  unfold State.abandonOp; split <;> simp
@[simp] theorem State.abandonOp_protect (s : State) :
    s.abandonOp.store.protect = s.store.protect := by
  unfold State.abandonOp; split <;> simp
@[simp] theorem State.afterReset_unitAddr (s : State) (unitAddr : Byte) (lineRate : BitVec 2) :
    (s.afterReset unitAddr lineRate).unitAddr = unitAddr := by simp only [State.afterReset]
@[simp] theorem State.afterReset_lineRate (s : State) (unitAddr : Byte) (lineRate : BitVec 2) :
    (s.afterReset unitAddr lineRate).lineRate = lineRate := by simp only [State.afterReset]
@[simp] theorem State.afterReset_receiver (s : State) (unitAddr : Byte) (lineRate : BitVec 2) :
    (s.afterReset unitAddr lineRate).receiver = State.reset.receiver := by simp only [State.afterReset]
@[simp] theorem State.afterReset_quietLeft (s : State) (unitAddr : Byte) (lineRate : BitVec 2) :
    (s.afterReset unitAddr lineRate).quietLeft = State.reset.quietLeft := by simp only [State.afterReset]
@[simp] theorem State.afterReset_answer (s : State) (unitAddr : Byte) (lineRate : BitVec 2) :
    (s.afterReset unitAddr lineRate).answer = State.reset.answer := by simp only [State.afterReset]
@[simp] theorem State.afterReset_checkFails (s : State) (unitAddr : Byte) (lineRate : BitVec 2) :
    (s.afterReset unitAddr lineRate).checkFails = State.reset.checkFails := by simp only [State.afterReset]
@[simp] theorem State.afterReset_framingErrors (s : State) (unitAddr : Byte) (lineRate : BitVec 2) :
    (s.afterReset unitAddr lineRate).framingErrors = State.reset.framingErrors := by simp only [State.afterReset]
@[simp] theorem State.afterReset_refusals (s : State) (unitAddr : Byte) (lineRate : BitVec 2) :
    (s.afterReset unitAddr lineRate).refusals = State.reset.refusals := by simp only [State.afterReset]
@[simp] theorem State.afterReset_stations (s : State) (unitAddr : Byte) (lineRate : BitVec 2) :
    (s.afterReset unitAddr lineRate).stations = State.reset.stations := by simp only [State.afterReset]
@[simp] theorem State.afterReset_classes (s : State) (unitAddr : Byte) (lineRate : BitVec 2) :
    (s.afterReset unitAddr lineRate).classes = State.reset.classes := by simp only [State.afterReset]
@[simp] theorem State.afterReset_keyMaps (s : State) (unitAddr : Byte) (lineRate : BitVec 2) :
    (s.afterReset unitAddr lineRate).keyMaps = State.reset.keyMaps := by simp only [State.afterReset]
@[simp] theorem State.afterReset_rq (s : State) (unitAddr : Byte) (lineRate : BitVec 2) :
    (s.afterReset unitAddr lineRate).rq = State.reset.rq := by simp only [State.afterReset]
@[simp] theorem State.afterReset_store (s : State) (unitAddr : Byte) (lineRate : BitVec 2) :
    (s.afterReset unitAddr lineRate).store = Store.starting s.abandonOp.store.mem s.abandonOp.store.protect := by simp only [State.afterReset]
@[simp] theorem State.afterReset_causes (s : State) (unitAddr : Byte) (lineRate : BitVec 2) :
    (s.afterReset unitAddr lineRate).causes = State.reset.causes := by simp only [State.afterReset]
@[simp] theorem State.afterReset_stationMask (s : State) (unitAddr : Byte) (lineRate : BitVec 2) :
    (s.afterReset unitAddr lineRate).stationMask = State.reset.stationMask := by simp only [State.afterReset]
@[simp] theorem State.afterReset_ctlMask (s : State) (unitAddr : Byte) (lineRate : BitVec 2) :
    (s.afterReset unitAddr lineRate).ctlMask = State.reset.ctlMask := by simp only [State.afterReset]
@[simp] theorem State.afterReset_freeCount (s : State) (unitAddr : Byte) (lineRate : BitVec 2) :
    (s.afterReset unitAddr lineRate).freeCount = s.abandonOp.freeCount := by simp only [State.afterReset]
@[simp] theorem State.afterReset_pending (s : State) (unitAddr : Byte) (lineRate : BitVec 2) :
    (s.afterReset unitAddr lineRate).pending = s.pending := by simp only [State.afterReset]

/-! ### Station: marks -/

@[simp] theorem Station.markLines_link (st : Station) (p : Nat → Bool) :
    (st.markLines p).link = st.link := by
  unfold Station.markLines; split <;> rfl
@[simp] theorem Station.markLines_input (st : Station) (p : Nat → Bool) :
    (st.markLines p).input = st.input := by
  unfold Station.markLines; split <;> rfl
@[simp] theorem Station.markLines_error (st : Station) (p : Nat → Bool) :
    (st.markLines p).error = st.error := by
  unfold Station.markLines; split <;> rfl
@[simp] theorem Station.markLines_profile (st : Station) (p : Nat → Bool) :
    (st.markLines p).profile = st.profile := by
  unfold Station.markLines; split <;> rfl
@[simp] theorem Station.markLines_sheet (st : Station) (p : Nat → Bool) :
    (st.markLines p).sheet = st.sheet := by
  unfold Station.markLines; split <;> rfl
@[simp] theorem Station.markLines_message (st : Station) (p : Nat → Bool) :
    (st.markLines p).message = st.message := by
  unfold Station.markLines; split <;> rfl
@[simp] theorem Station.markLines_typeAhead (st : Station) (p : Nat → Bool) :
    (st.markLines p).typeAhead = st.typeAhead := by
  unfold Station.markLines; split <;> rfl
@[simp] theorem Station.markLines_shiftHolders (st : Station) (p : Nat → Bool) :
    (st.markLines p).shiftHolders = st.shiftHolders := by
  unfold Station.markLines; split <;> rfl
@[simp] theorem Station.markLines_altHolders (st : Station) (p : Nat → Bool) :
    (st.markLines p).altHolders = st.altHolders := by
  unfold Station.markLines; split <;> rfl
@[simp] theorem Station.markLines_chatter (st : Station) (p : Nat → Bool) :
    (st.markLines p).chatter = st.chatter := by
  unfold Station.markLines; split <;> rfl
@[simp] theorem Station.markLines_rep (st : Station) (p : Nat → Bool) :
    (st.markLines p).rep = st.rep := by
  unfold Station.markLines; split <;> rfl
@[simp] theorem Station.markLines_scan (st : Station) (p : Nat → Bool) :
    (st.markLines p).scan = st.scan := by
  unfold Station.markLines; split <;> rfl
@[simp] theorem Station.markLines_keysDiscarded (st : Station) (p : Nat → Bool) :
    (st.markLines p).keysDiscarded = st.keysDiscarded := by
  unfold Station.markLines; split <;> rfl
@[simp] theorem Station.markLines_scanRejects (st : Station) (p : Nat → Bool) :
    (st.markLines p).scanRejects = st.scanRejects := by
  unfold Station.markLines; split <;> rfl
@[simp] theorem Station.markCursor_link (st : Station) :
    (st.markCursor).link = st.link := by
  unfold Station.markCursor; split <;> rfl
@[simp] theorem Station.markCursor_input (st : Station) :
    (st.markCursor).input = st.input := by
  unfold Station.markCursor; split <;> rfl
@[simp] theorem Station.markCursor_error (st : Station) :
    (st.markCursor).error = st.error := by
  unfold Station.markCursor; split <;> rfl
@[simp] theorem Station.markCursor_profile (st : Station) :
    (st.markCursor).profile = st.profile := by
  unfold Station.markCursor; split <;> rfl
@[simp] theorem Station.markCursor_sheet (st : Station) :
    (st.markCursor).sheet = st.sheet := by
  unfold Station.markCursor; split <;> rfl
@[simp] theorem Station.markCursor_message (st : Station) :
    (st.markCursor).message = st.message := by
  unfold Station.markCursor; split <;> rfl
@[simp] theorem Station.markCursor_typeAhead (st : Station) :
    (st.markCursor).typeAhead = st.typeAhead := by
  unfold Station.markCursor; split <;> rfl
@[simp] theorem Station.markCursor_shiftHolders (st : Station) :
    (st.markCursor).shiftHolders = st.shiftHolders := by
  unfold Station.markCursor; split <;> rfl
@[simp] theorem Station.markCursor_altHolders (st : Station) :
    (st.markCursor).altHolders = st.altHolders := by
  unfold Station.markCursor; split <;> rfl
@[simp] theorem Station.markCursor_chatter (st : Station) :
    (st.markCursor).chatter = st.chatter := by
  unfold Station.markCursor; split <;> rfl
@[simp] theorem Station.markCursor_rep (st : Station) :
    (st.markCursor).rep = st.rep := by
  unfold Station.markCursor; split <;> rfl
@[simp] theorem Station.markCursor_scan (st : Station) :
    (st.markCursor).scan = st.scan := by
  unfold Station.markCursor; split <;> rfl
@[simp] theorem Station.markCursor_keysDiscarded (st : Station) :
    (st.markCursor).keysDiscarded = st.keysDiscarded := by
  unfold Station.markCursor; split <;> rfl
@[simp] theorem Station.markCursor_scanRejects (st : Station) :
    (st.markCursor).scanRejects = st.scanRejects := by
  unfold Station.markCursor; split <;> rfl
@[simp] theorem Station.requestAlarm_link (st : Station) :
    (st.requestAlarm).link = st.link := by
  unfold Station.requestAlarm; split <;> rfl
@[simp] theorem Station.requestAlarm_input (st : Station) :
    (st.requestAlarm).input = st.input := by
  unfold Station.requestAlarm; split <;> rfl
@[simp] theorem Station.requestAlarm_error (st : Station) :
    (st.requestAlarm).error = st.error := by
  unfold Station.requestAlarm; split <;> rfl
@[simp] theorem Station.requestAlarm_profile (st : Station) :
    (st.requestAlarm).profile = st.profile := by
  unfold Station.requestAlarm; split <;> rfl
@[simp] theorem Station.requestAlarm_sheet (st : Station) :
    (st.requestAlarm).sheet = st.sheet := by
  unfold Station.requestAlarm; split <;> rfl
@[simp] theorem Station.requestAlarm_message (st : Station) :
    (st.requestAlarm).message = st.message := by
  unfold Station.requestAlarm; split <;> rfl
@[simp] theorem Station.requestAlarm_typeAhead (st : Station) :
    (st.requestAlarm).typeAhead = st.typeAhead := by
  unfold Station.requestAlarm; split <;> rfl
@[simp] theorem Station.requestAlarm_shiftHolders (st : Station) :
    (st.requestAlarm).shiftHolders = st.shiftHolders := by
  unfold Station.requestAlarm; split <;> rfl
@[simp] theorem Station.requestAlarm_altHolders (st : Station) :
    (st.requestAlarm).altHolders = st.altHolders := by
  unfold Station.requestAlarm; split <;> rfl
@[simp] theorem Station.requestAlarm_chatter (st : Station) :
    (st.requestAlarm).chatter = st.chatter := by
  unfold Station.requestAlarm; split <;> rfl
@[simp] theorem Station.requestAlarm_rep (st : Station) :
    (st.requestAlarm).rep = st.rep := by
  unfold Station.requestAlarm; split <;> rfl
@[simp] theorem Station.requestAlarm_scan (st : Station) :
    (st.requestAlarm).scan = st.scan := by
  unfold Station.requestAlarm; split <;> rfl
@[simp] theorem Station.requestAlarm_keysDiscarded (st : Station) :
    (st.requestAlarm).keysDiscarded = st.keysDiscarded := by
  unfold Station.requestAlarm; split <;> rfl
@[simp] theorem Station.requestAlarm_scanRejects (st : Station) :
    (st.requestAlarm).scanRejects = st.scanRejects := by
  unfold Station.requestAlarm; split <;> rfl
@[simp] theorem Station.markIndicator_link (st : Station) :
    (st.markIndicator).link = st.link := by simp [Station.markIndicator]
@[simp] theorem Station.markIndicator_input (st : Station) :
    (st.markIndicator).input = st.input := by simp [Station.markIndicator]
@[simp] theorem Station.markIndicator_error (st : Station) :
    (st.markIndicator).error = st.error := by simp [Station.markIndicator]
@[simp] theorem Station.markIndicator_profile (st : Station) :
    (st.markIndicator).profile = st.profile := by simp [Station.markIndicator]
@[simp] theorem Station.markIndicator_sheet (st : Station) :
    (st.markIndicator).sheet = st.sheet := by simp [Station.markIndicator]
@[simp] theorem Station.markIndicator_message (st : Station) :
    (st.markIndicator).message = st.message := by simp [Station.markIndicator]
@[simp] theorem Station.markIndicator_typeAhead (st : Station) :
    (st.markIndicator).typeAhead = st.typeAhead := by simp [Station.markIndicator]
@[simp] theorem Station.markIndicator_shiftHolders (st : Station) :
    (st.markIndicator).shiftHolders = st.shiftHolders := by simp [Station.markIndicator]
@[simp] theorem Station.markIndicator_altHolders (st : Station) :
    (st.markIndicator).altHolders = st.altHolders := by simp [Station.markIndicator]
@[simp] theorem Station.markIndicator_chatter (st : Station) :
    (st.markIndicator).chatter = st.chatter := by simp [Station.markIndicator]
@[simp] theorem Station.markIndicator_rep (st : Station) :
    (st.markIndicator).rep = st.rep := by simp [Station.markIndicator]
@[simp] theorem Station.markIndicator_scan (st : Station) :
    (st.markIndicator).scan = st.scan := by simp [Station.markIndicator]
@[simp] theorem Station.markIndicator_keysDiscarded (st : Station) :
    (st.markIndicator).keysDiscarded = st.keysDiscarded := by simp [Station.markIndicator]
@[simp] theorem Station.markIndicator_scanRejects (st : Station) :
    (st.markIndicator).scanRejects = st.scanRejects := by simp [Station.markIndicator]
@[simp] theorem Station.markCells_link (st : Station) (a n : Nat) :
    (st.markCells a n).link = st.link := by simp [Station.markCells]
@[simp] theorem Station.markCells_input (st : Station) (a n : Nat) :
    (st.markCells a n).input = st.input := by simp [Station.markCells]
@[simp] theorem Station.markCells_error (st : Station) (a n : Nat) :
    (st.markCells a n).error = st.error := by simp [Station.markCells]
@[simp] theorem Station.markCells_profile (st : Station) (a n : Nat) :
    (st.markCells a n).profile = st.profile := by simp [Station.markCells]
@[simp] theorem Station.markCells_sheet (st : Station) (a n : Nat) :
    (st.markCells a n).sheet = st.sheet := by simp [Station.markCells]
@[simp] theorem Station.markCells_message (st : Station) (a n : Nat) :
    (st.markCells a n).message = st.message := by simp [Station.markCells]
@[simp] theorem Station.markCells_typeAhead (st : Station) (a n : Nat) :
    (st.markCells a n).typeAhead = st.typeAhead := by simp [Station.markCells]
@[simp] theorem Station.markCells_shiftHolders (st : Station) (a n : Nat) :
    (st.markCells a n).shiftHolders = st.shiftHolders := by simp [Station.markCells]
@[simp] theorem Station.markCells_altHolders (st : Station) (a n : Nat) :
    (st.markCells a n).altHolders = st.altHolders := by simp [Station.markCells]
@[simp] theorem Station.markCells_chatter (st : Station) (a n : Nat) :
    (st.markCells a n).chatter = st.chatter := by simp [Station.markCells]
@[simp] theorem Station.markCells_rep (st : Station) (a n : Nat) :
    (st.markCells a n).rep = st.rep := by simp [Station.markCells]
@[simp] theorem Station.markCells_scan (st : Station) (a n : Nat) :
    (st.markCells a n).scan = st.scan := by simp [Station.markCells]
@[simp] theorem Station.markCells_keysDiscarded (st : Station) (a n : Nat) :
    (st.markCells a n).keysDiscarded = st.keysDiscarded := by simp [Station.markCells]
@[simp] theorem Station.markCells_scanRejects (st : Station) (a n : Nat) :
    (st.markCells a n).scanRejects = st.scanRejects := by simp [Station.markCells]
@[simp] theorem Station.markField_link (st : Station) (f : Field) :
    (st.markField f).link = st.link := by simp [Station.markField]
@[simp] theorem Station.markField_input (st : Station) (f : Field) :
    (st.markField f).input = st.input := by simp [Station.markField]
@[simp] theorem Station.markField_error (st : Station) (f : Field) :
    (st.markField f).error = st.error := by simp [Station.markField]
@[simp] theorem Station.markField_profile (st : Station) (f : Field) :
    (st.markField f).profile = st.profile := by simp [Station.markField]
@[simp] theorem Station.markField_sheet (st : Station) (f : Field) :
    (st.markField f).sheet = st.sheet := by simp [Station.markField]
@[simp] theorem Station.markField_message (st : Station) (f : Field) :
    (st.markField f).message = st.message := by simp [Station.markField]
@[simp] theorem Station.markField_typeAhead (st : Station) (f : Field) :
    (st.markField f).typeAhead = st.typeAhead := by simp [Station.markField]
@[simp] theorem Station.markField_shiftHolders (st : Station) (f : Field) :
    (st.markField f).shiftHolders = st.shiftHolders := by simp [Station.markField]
@[simp] theorem Station.markField_altHolders (st : Station) (f : Field) :
    (st.markField f).altHolders = st.altHolders := by simp [Station.markField]
@[simp] theorem Station.markField_chatter (st : Station) (f : Field) :
    (st.markField f).chatter = st.chatter := by simp [Station.markField]
@[simp] theorem Station.markField_rep (st : Station) (f : Field) :
    (st.markField f).rep = st.rep := by simp [Station.markField]
@[simp] theorem Station.markField_scan (st : Station) (f : Field) :
    (st.markField f).scan = st.scan := by simp [Station.markField]
@[simp] theorem Station.markField_keysDiscarded (st : Station) (f : Field) :
    (st.markField f).keysDiscarded = st.keysDiscarded := by simp [Station.markField]
@[simp] theorem Station.markField_scanRejects (st : Station) (f : Field) :
    (st.markField f).scanRejects = st.scanRejects := by simp [Station.markField]
@[simp] theorem Station.markAll_link (st : Station) :
    (st.markAll).link = st.link := by simp [Station.markAll]
@[simp] theorem Station.markAll_input (st : Station) :
    (st.markAll).input = st.input := by simp [Station.markAll]
@[simp] theorem Station.markAll_error (st : Station) :
    (st.markAll).error = st.error := by simp [Station.markAll]
@[simp] theorem Station.markAll_profile (st : Station) :
    (st.markAll).profile = st.profile := by simp [Station.markAll]
@[simp] theorem Station.markAll_sheet (st : Station) :
    (st.markAll).sheet = st.sheet := by simp [Station.markAll]
@[simp] theorem Station.markAll_message (st : Station) :
    (st.markAll).message = st.message := by simp [Station.markAll]
@[simp] theorem Station.markAll_typeAhead (st : Station) :
    (st.markAll).typeAhead = st.typeAhead := by simp [Station.markAll]
@[simp] theorem Station.markAll_shiftHolders (st : Station) :
    (st.markAll).shiftHolders = st.shiftHolders := by simp [Station.markAll]
@[simp] theorem Station.markAll_altHolders (st : Station) :
    (st.markAll).altHolders = st.altHolders := by simp [Station.markAll]
@[simp] theorem Station.markAll_chatter (st : Station) :
    (st.markAll).chatter = st.chatter := by simp [Station.markAll]
@[simp] theorem Station.markAll_rep (st : Station) :
    (st.markAll).rep = st.rep := by simp [Station.markAll]
@[simp] theorem Station.markAll_scan (st : Station) :
    (st.markAll).scan = st.scan := by simp [Station.markAll]
@[simp] theorem Station.markAll_keysDiscarded (st : Station) :
    (st.markAll).keysDiscarded = st.keysDiscarded := by simp [Station.markAll]
@[simp] theorem Station.markAll_scanRejects (st : Station) :
    (st.markAll).scanRejects = st.scanRejects := by simp [Station.markAll]

/-! ### Station: changes with their marks -/

@[simp] theorem Station.putCells_link (st : Station) (a : Nat) (chars : List Byte) :
    (st.putCells a chars).link = st.link := by simp [Station.putCells]
@[simp] theorem Station.putCells_input (st : Station) (a : Nat) (chars : List Byte) :
    (st.putCells a chars).input = st.input := by simp [Station.putCells]
@[simp] theorem Station.putCells_error (st : Station) (a : Nat) (chars : List Byte) :
    (st.putCells a chars).error = st.error := by simp [Station.putCells]
@[simp] theorem Station.putCells_profile (st : Station) (a : Nat) (chars : List Byte) :
    (st.putCells a chars).profile = st.profile := by simp [Station.putCells]
@[simp] theorem Station.putCells_sheet (st : Station) (a : Nat) (chars : List Byte) :
    (st.putCells a chars).sheet = st.sheet.putCells a chars := by simp [Station.putCells]
@[simp] theorem Station.putCells_message (st : Station) (a : Nat) (chars : List Byte) :
    (st.putCells a chars).message = st.message := by simp [Station.putCells]
@[simp] theorem Station.putCells_typeAhead (st : Station) (a : Nat) (chars : List Byte) :
    (st.putCells a chars).typeAhead = st.typeAhead := by simp [Station.putCells]
@[simp] theorem Station.putCells_shiftHolders (st : Station) (a : Nat) (chars : List Byte) :
    (st.putCells a chars).shiftHolders = st.shiftHolders := by simp [Station.putCells]
@[simp] theorem Station.putCells_altHolders (st : Station) (a : Nat) (chars : List Byte) :
    (st.putCells a chars).altHolders = st.altHolders := by simp [Station.putCells]
@[simp] theorem Station.putCells_chatter (st : Station) (a : Nat) (chars : List Byte) :
    (st.putCells a chars).chatter = st.chatter := by simp [Station.putCells]
@[simp] theorem Station.putCells_rep (st : Station) (a : Nat) (chars : List Byte) :
    (st.putCells a chars).rep = st.rep := by simp [Station.putCells]
@[simp] theorem Station.putCells_scan (st : Station) (a : Nat) (chars : List Byte) :
    (st.putCells a chars).scan = st.scan := by simp [Station.putCells]
@[simp] theorem Station.putCells_keysDiscarded (st : Station) (a : Nat) (chars : List Byte) :
    (st.putCells a chars).keysDiscarded = st.keysDiscarded := by simp [Station.putCells]
@[simp] theorem Station.putCells_scanRejects (st : Station) (a : Nat) (chars : List Byte) :
    (st.putCells a chars).scanRejects = st.scanRejects := by simp [Station.putCells]
@[simp] theorem Station.replaceSheet_link (st : Station) (sh : Sheet) :
    (st.replaceSheet sh).link = st.link := by simp [Station.replaceSheet]
@[simp] theorem Station.replaceSheet_input (st : Station) (sh : Sheet) :
    (st.replaceSheet sh).input = st.input := by simp [Station.replaceSheet]
@[simp] theorem Station.replaceSheet_error (st : Station) (sh : Sheet) :
    (st.replaceSheet sh).error = st.error := by simp [Station.replaceSheet]
@[simp] theorem Station.replaceSheet_profile (st : Station) (sh : Sheet) :
    (st.replaceSheet sh).profile = st.profile := by simp [Station.replaceSheet]
@[simp] theorem Station.replaceSheet_sheet (st : Station) (sh : Sheet) :
    (st.replaceSheet sh).sheet = sh := by simp [Station.replaceSheet]
@[simp] theorem Station.replaceSheet_message (st : Station) (sh : Sheet) :
    (st.replaceSheet sh).message = st.message := by simp [Station.replaceSheet]
@[simp] theorem Station.replaceSheet_typeAhead (st : Station) (sh : Sheet) :
    (st.replaceSheet sh).typeAhead = st.typeAhead := by simp [Station.replaceSheet]
@[simp] theorem Station.replaceSheet_shiftHolders (st : Station) (sh : Sheet) :
    (st.replaceSheet sh).shiftHolders = st.shiftHolders := by simp [Station.replaceSheet]
@[simp] theorem Station.replaceSheet_altHolders (st : Station) (sh : Sheet) :
    (st.replaceSheet sh).altHolders = st.altHolders := by simp [Station.replaceSheet]
@[simp] theorem Station.replaceSheet_chatter (st : Station) (sh : Sheet) :
    (st.replaceSheet sh).chatter = st.chatter := by simp [Station.replaceSheet]
@[simp] theorem Station.replaceSheet_rep (st : Station) (sh : Sheet) :
    (st.replaceSheet sh).rep = st.rep := by simp [Station.replaceSheet]
@[simp] theorem Station.replaceSheet_scan (st : Station) (sh : Sheet) :
    (st.replaceSheet sh).scan = st.scan := by simp [Station.replaceSheet]
@[simp] theorem Station.replaceSheet_keysDiscarded (st : Station) (sh : Sheet) :
    (st.replaceSheet sh).keysDiscarded = st.keysDiscarded := by simp [Station.replaceSheet]
@[simp] theorem Station.replaceSheet_scanRejects (st : Station) (sh : Sheet) :
    (st.replaceSheet sh).scanRejects = st.scanRejects := by simp [Station.replaceSheet]
@[simp] theorem Station.setEdited_link (st : Station) (k : Option Nat) :
    (st.setEdited k).link = st.link := rfl
@[simp] theorem Station.setEdited_input (st : Station) (k : Option Nat) :
    (st.setEdited k).input = st.input := rfl
@[simp] theorem Station.setEdited_error (st : Station) (k : Option Nat) :
    (st.setEdited k).error = st.error := rfl
@[simp] theorem Station.setEdited_profile (st : Station) (k : Option Nat) :
    (st.setEdited k).profile = st.profile := rfl
@[simp] theorem Station.setEdited_message (st : Station) (k : Option Nat) :
    (st.setEdited k).message = st.message := rfl
@[simp] theorem Station.setEdited_typeAhead (st : Station) (k : Option Nat) :
    (st.setEdited k).typeAhead = st.typeAhead := rfl
@[simp] theorem Station.setEdited_shiftHolders (st : Station) (k : Option Nat) :
    (st.setEdited k).shiftHolders = st.shiftHolders := rfl
@[simp] theorem Station.setEdited_altHolders (st : Station) (k : Option Nat) :
    (st.setEdited k).altHolders = st.altHolders := rfl
@[simp] theorem Station.setEdited_chatter (st : Station) (k : Option Nat) :
    (st.setEdited k).chatter = st.chatter := rfl
@[simp] theorem Station.setEdited_rep (st : Station) (k : Option Nat) :
    (st.setEdited k).rep = st.rep := rfl
@[simp] theorem Station.setEdited_scan (st : Station) (k : Option Nat) :
    (st.setEdited k).scan = st.scan := rfl
@[simp] theorem Station.setEdited_dr (st : Station) (k : Option Nat) :
    (st.setEdited k).dr = st.dr := rfl
@[simp] theorem Station.setEdited_keysDiscarded (st : Station) (k : Option Nat) :
    (st.setEdited k).keysDiscarded = st.keysDiscarded := rfl
@[simp] theorem Station.setEdited_scanRejects (st : Station) (k : Option Nat) :
    (st.setEdited k).scanRejects = st.scanRejects := rfl
@[simp] theorem Station.setMessage_link (st : Station) (chars : List Byte) :
    (st.setMessage chars).link = st.link := by simp [Station.setMessage]
@[simp] theorem Station.setMessage_input (st : Station) (chars : List Byte) :
    (st.setMessage chars).input = st.input := by simp [Station.setMessage]
@[simp] theorem Station.setMessage_error (st : Station) (chars : List Byte) :
    (st.setMessage chars).error = st.error := by simp [Station.setMessage]
@[simp] theorem Station.setMessage_profile (st : Station) (chars : List Byte) :
    (st.setMessage chars).profile = st.profile := by simp [Station.setMessage]
@[simp] theorem Station.setMessage_sheet (st : Station) (chars : List Byte) :
    (st.setMessage chars).sheet = st.sheet := by simp [Station.setMessage]
@[simp] theorem Station.setMessage_message (st : Station) (chars : List Byte) :
    (st.setMessage chars).message = messageArea chars := by simp [Station.setMessage]
@[simp] theorem Station.setMessage_typeAhead (st : Station) (chars : List Byte) :
    (st.setMessage chars).typeAhead = st.typeAhead := by simp [Station.setMessage]
@[simp] theorem Station.setMessage_shiftHolders (st : Station) (chars : List Byte) :
    (st.setMessage chars).shiftHolders = st.shiftHolders := by simp [Station.setMessage]
@[simp] theorem Station.setMessage_altHolders (st : Station) (chars : List Byte) :
    (st.setMessage chars).altHolders = st.altHolders := by simp [Station.setMessage]
@[simp] theorem Station.setMessage_chatter (st : Station) (chars : List Byte) :
    (st.setMessage chars).chatter = st.chatter := by simp [Station.setMessage]
@[simp] theorem Station.setMessage_rep (st : Station) (chars : List Byte) :
    (st.setMessage chars).rep = st.rep := by simp [Station.setMessage]
@[simp] theorem Station.setMessage_scan (st : Station) (chars : List Byte) :
    (st.setMessage chars).scan = st.scan := by simp [Station.setMessage]
@[simp] theorem Station.setMessage_keysDiscarded (st : Station) (chars : List Byte) :
    (st.setMessage chars).keysDiscarded = st.keysDiscarded := by simp [Station.setMessage]
@[simp] theorem Station.setMessage_scanRejects (st : Station) (chars : List Byte) :
    (st.setMessage chars).scanRejects = st.scanRejects := by simp [Station.setMessage]
@[simp] theorem Station.setCursor_link (st : Station) (a : Nat) :
    (st.setCursor a).link = st.link := by
  unfold Station.setCursor; split <;> simp
@[simp] theorem Station.setCursor_input (st : Station) (a : Nat) :
    (st.setCursor a).input = st.input := by
  unfold Station.setCursor; split <;> simp
@[simp] theorem Station.setCursor_error (st : Station) (a : Nat) :
    (st.setCursor a).error = st.error := by
  unfold Station.setCursor; split <;> simp
@[simp] theorem Station.setCursor_profile (st : Station) (a : Nat) :
    (st.setCursor a).profile = st.profile := by
  unfold Station.setCursor; split <;> simp
@[simp] theorem Station.setCursor_message (st : Station) (a : Nat) :
    (st.setCursor a).message = st.message := by
  unfold Station.setCursor; split <;> simp
@[simp] theorem Station.setCursor_typeAhead (st : Station) (a : Nat) :
    (st.setCursor a).typeAhead = st.typeAhead := by
  unfold Station.setCursor; split <;> simp
@[simp] theorem Station.setCursor_shiftHolders (st : Station) (a : Nat) :
    (st.setCursor a).shiftHolders = st.shiftHolders := by
  unfold Station.setCursor; split <;> simp
@[simp] theorem Station.setCursor_altHolders (st : Station) (a : Nat) :
    (st.setCursor a).altHolders = st.altHolders := by
  unfold Station.setCursor; split <;> simp
@[simp] theorem Station.setCursor_chatter (st : Station) (a : Nat) :
    (st.setCursor a).chatter = st.chatter := by
  unfold Station.setCursor; split <;> simp
@[simp] theorem Station.setCursor_rep (st : Station) (a : Nat) :
    (st.setCursor a).rep = st.rep := by
  unfold Station.setCursor; split <;> simp
@[simp] theorem Station.setCursor_scan (st : Station) (a : Nat) :
    (st.setCursor a).scan = st.scan := by
  unfold Station.setCursor; split <;> simp
@[simp] theorem Station.setCursor_keysDiscarded (st : Station) (a : Nat) :
    (st.setCursor a).keysDiscarded = st.keysDiscarded := by
  unfold Station.setCursor; split <;> simp
@[simp] theorem Station.setCursor_scanRejects (st : Station) (a : Nat) :
    (st.setCursor a).scanRejects = st.scanRejects := by
  unfold Station.setCursor; split <;> simp
@[simp] theorem Station.setTop_link (st : Station) (t : Nat) :
    (st.setTop t).link = st.link := by
  unfold Station.setTop; split <;> simp
@[simp] theorem Station.setTop_input (st : Station) (t : Nat) :
    (st.setTop t).input = st.input := by
  unfold Station.setTop; split <;> simp
@[simp] theorem Station.setTop_error (st : Station) (t : Nat) :
    (st.setTop t).error = st.error := by
  unfold Station.setTop; split <;> simp
@[simp] theorem Station.setTop_profile (st : Station) (t : Nat) :
    (st.setTop t).profile = st.profile := by
  unfold Station.setTop; split <;> simp
@[simp] theorem Station.setTop_message (st : Station) (t : Nat) :
    (st.setTop t).message = st.message := by
  unfold Station.setTop; split <;> simp
@[simp] theorem Station.setTop_typeAhead (st : Station) (t : Nat) :
    (st.setTop t).typeAhead = st.typeAhead := by
  unfold Station.setTop; split <;> simp
@[simp] theorem Station.setTop_shiftHolders (st : Station) (t : Nat) :
    (st.setTop t).shiftHolders = st.shiftHolders := by
  unfold Station.setTop; split <;> simp
@[simp] theorem Station.setTop_altHolders (st : Station) (t : Nat) :
    (st.setTop t).altHolders = st.altHolders := by
  unfold Station.setTop; split <;> simp
@[simp] theorem Station.setTop_chatter (st : Station) (t : Nat) :
    (st.setTop t).chatter = st.chatter := by
  unfold Station.setTop; split <;> simp
@[simp] theorem Station.setTop_rep (st : Station) (t : Nat) :
    (st.setTop t).rep = st.rep := by
  unfold Station.setTop; split <;> simp
@[simp] theorem Station.setTop_scan (st : Station) (t : Nat) :
    (st.setTop t).scan = st.scan := by
  unfold Station.setTop; split <;> simp
@[simp] theorem Station.setTop_keysDiscarded (st : Station) (t : Nat) :
    (st.setTop t).keysDiscarded = st.keysDiscarded := by
  unfold Station.setTop; split <;> simp
@[simp] theorem Station.setTop_scanRejects (st : Station) (t : Nat) :
    (st.setTop t).scanRejects = st.scanRejects := by
  unfold Station.setTop; split <;> simp
@[simp] theorem Station.follow_link (st : Station) :
    (st.follow).link = st.link := by simp [Station.follow]
@[simp] theorem Station.follow_input (st : Station) :
    (st.follow).input = st.input := by simp [Station.follow]
@[simp] theorem Station.follow_error (st : Station) :
    (st.follow).error = st.error := by simp [Station.follow]
@[simp] theorem Station.follow_profile (st : Station) :
    (st.follow).profile = st.profile := by simp [Station.follow]
@[simp] theorem Station.follow_message (st : Station) :
    (st.follow).message = st.message := by simp [Station.follow]
@[simp] theorem Station.follow_typeAhead (st : Station) :
    (st.follow).typeAhead = st.typeAhead := by simp [Station.follow]
@[simp] theorem Station.follow_shiftHolders (st : Station) :
    (st.follow).shiftHolders = st.shiftHolders := by simp [Station.follow]
@[simp] theorem Station.follow_altHolders (st : Station) :
    (st.follow).altHolders = st.altHolders := by simp [Station.follow]
@[simp] theorem Station.follow_chatter (st : Station) :
    (st.follow).chatter = st.chatter := by simp [Station.follow]
@[simp] theorem Station.follow_rep (st : Station) :
    (st.follow).rep = st.rep := by simp [Station.follow]
@[simp] theorem Station.follow_scan (st : Station) :
    (st.follow).scan = st.scan := by simp [Station.follow]
@[simp] theorem Station.follow_keysDiscarded (st : Station) :
    (st.follow).keysDiscarded = st.keysDiscarded := by simp [Station.follow]
@[simp] theorem Station.follow_scanRejects (st : Station) :
    (st.follow).scanRejects = st.scanRejects := by simp [Station.follow]
@[simp] theorem Station.setInsert_link (st : Station) (f : Bool) :
    (st.setInsert f).link = st.link := by
  unfold Station.setInsert; split <;> simp
@[simp] theorem Station.setInsert_input (st : Station) (f : Bool) :
    (st.setInsert f).input = st.input := by
  unfold Station.setInsert; split <;> simp
@[simp] theorem Station.setInsert_error (st : Station) (f : Bool) :
    (st.setInsert f).error = st.error := by
  unfold Station.setInsert; split <;> simp
@[simp] theorem Station.setInsert_profile (st : Station) (f : Bool) :
    (st.setInsert f).profile = st.profile := by
  unfold Station.setInsert; split <;> simp
@[simp] theorem Station.setInsert_message (st : Station) (f : Bool) :
    (st.setInsert f).message = st.message := by
  unfold Station.setInsert; split <;> simp
@[simp] theorem Station.setInsert_typeAhead (st : Station) (f : Bool) :
    (st.setInsert f).typeAhead = st.typeAhead := by
  unfold Station.setInsert; split <;> simp
@[simp] theorem Station.setInsert_shiftHolders (st : Station) (f : Bool) :
    (st.setInsert f).shiftHolders = st.shiftHolders := by
  unfold Station.setInsert; split <;> simp
@[simp] theorem Station.setInsert_altHolders (st : Station) (f : Bool) :
    (st.setInsert f).altHolders = st.altHolders := by
  unfold Station.setInsert; split <;> simp
@[simp] theorem Station.setInsert_chatter (st : Station) (f : Bool) :
    (st.setInsert f).chatter = st.chatter := by
  unfold Station.setInsert; split <;> simp
@[simp] theorem Station.setInsert_rep (st : Station) (f : Bool) :
    (st.setInsert f).rep = st.rep := by
  unfold Station.setInsert; split <;> simp
@[simp] theorem Station.setInsert_scan (st : Station) (f : Bool) :
    (st.setInsert f).scan = st.scan := by
  unfold Station.setInsert; split <;> simp
@[simp] theorem Station.setInsert_keysDiscarded (st : Station) (f : Bool) :
    (st.setInsert f).keysDiscarded = st.keysDiscarded := by
  unfold Station.setInsert; split <;> simp
@[simp] theorem Station.setInsert_scanRejects (st : Station) (f : Bool) :
    (st.setInsert f).scanRejects = st.scanRejects := by
  unfold Station.setInsert; split <;> simp
@[simp] theorem Station.setInput_link (st : Station) (i : InputState) :
    (st.setInput i).link = st.link := by
  unfold Station.setInput; split <;> simp
@[simp] theorem Station.setInput_error (st : Station) (i : InputState) :
    (st.setInput i).error = st.error := by
  unfold Station.setInput; split <;> simp
@[simp] theorem Station.setInput_profile (st : Station) (i : InputState) :
    (st.setInput i).profile = st.profile := by
  unfold Station.setInput; split <;> simp
@[simp] theorem Station.setInput_sheet (st : Station) (i : InputState) :
    (st.setInput i).sheet = st.sheet := by
  unfold Station.setInput; split <;> simp
@[simp] theorem Station.setInput_message (st : Station) (i : InputState) :
    (st.setInput i).message = st.message := by
  unfold Station.setInput; split <;> simp
@[simp] theorem Station.setInput_typeAhead (st : Station) (i : InputState) :
    (st.setInput i).typeAhead = st.typeAhead := by
  unfold Station.setInput; split <;> simp
@[simp] theorem Station.setInput_shiftHolders (st : Station) (i : InputState) :
    (st.setInput i).shiftHolders = st.shiftHolders := by
  unfold Station.setInput; split <;> simp
@[simp] theorem Station.setInput_altHolders (st : Station) (i : InputState) :
    (st.setInput i).altHolders = st.altHolders := by
  unfold Station.setInput; split <;> simp
@[simp] theorem Station.setInput_chatter (st : Station) (i : InputState) :
    (st.setInput i).chatter = st.chatter := by
  unfold Station.setInput; split <;> simp
@[simp] theorem Station.setInput_scan (st : Station) (i : InputState) :
    (st.setInput i).scan = st.scan := by
  unfold Station.setInput; split <;> simp
@[simp] theorem Station.setInput_keysDiscarded (st : Station) (i : InputState) :
    (st.setInput i).keysDiscarded = st.keysDiscarded := by
  unfold Station.setInput; split <;> simp
@[simp] theorem Station.setInput_scanRejects (st : Station) (i : InputState) :
    (st.setInput i).scanRejects = st.scanRejects := by
  unfold Station.setInput; split <;> simp
@[simp] theorem Station.dropScan_link (st : Station) :
    (st.dropScan).link = st.link := by
  unfold Station.dropScan; split <;> simp
@[simp] theorem Station.dropScan_input (st : Station) :
    (st.dropScan).input = st.input := by
  unfold Station.dropScan; split <;> simp
@[simp] theorem Station.dropScan_error (st : Station) :
    (st.dropScan).error = st.error := by
  unfold Station.dropScan; split <;> simp
@[simp] theorem Station.dropScan_profile (st : Station) :
    (st.dropScan).profile = st.profile := by
  unfold Station.dropScan; split <;> simp
@[simp] theorem Station.dropScan_sheet (st : Station) :
    (st.dropScan).sheet = st.sheet := by
  unfold Station.dropScan; split <;> simp
@[simp] theorem Station.dropScan_message (st : Station) :
    (st.dropScan).message = st.message := by
  unfold Station.dropScan; split <;> simp
@[simp] theorem Station.dropScan_typeAhead (st : Station) :
    (st.dropScan).typeAhead = st.typeAhead := by
  unfold Station.dropScan; split <;> simp
@[simp] theorem Station.dropScan_shiftHolders (st : Station) :
    (st.dropScan).shiftHolders = st.shiftHolders := by
  unfold Station.dropScan; split <;> simp
@[simp] theorem Station.dropScan_altHolders (st : Station) :
    (st.dropScan).altHolders = st.altHolders := by
  unfold Station.dropScan; split <;> simp
@[simp] theorem Station.dropScan_chatter (st : Station) :
    (st.dropScan).chatter = st.chatter := by
  unfold Station.dropScan; split <;> simp
@[simp] theorem Station.dropScan_rep (st : Station) :
    (st.dropScan).rep = st.rep := by
  unfold Station.dropScan; split <;> simp
@[simp] theorem Station.dropScan_keysDiscarded (st : Station) :
    (st.dropScan).keysDiscarded = st.keysDiscarded := by
  unfold Station.dropScan; split <;> simp
@[simp] theorem Station.dropScan_scanRejects (st : Station) :
    (st.dropScan).scanRejects = st.scanRejects := by
  unfold Station.dropScan; split <;> simp
@[simp] theorem Station.dropRx_link (st : Station) :
    (st.dropRx).link = st.link := rfl
@[simp] theorem Station.dropRx_input (st : Station) :
    (st.dropRx).input = st.input := rfl
@[simp] theorem Station.dropRx_error (st : Station) :
    (st.dropRx).error = st.error := rfl
@[simp] theorem Station.dropRx_profile (st : Station) :
    (st.dropRx).profile = st.profile := rfl
@[simp] theorem Station.dropRx_sheet (st : Station) :
    (st.dropRx).sheet = st.sheet := rfl
@[simp] theorem Station.dropRx_message (st : Station) :
    (st.dropRx).message = st.message := rfl
@[simp] theorem Station.dropRx_typeAhead (st : Station) :
    (st.dropRx).typeAhead = st.typeAhead := rfl
@[simp] theorem Station.dropRx_shiftHolders (st : Station) :
    (st.dropRx).shiftHolders = st.shiftHolders := rfl
@[simp] theorem Station.dropRx_altHolders (st : Station) :
    (st.dropRx).altHolders = st.altHolders := rfl
@[simp] theorem Station.dropRx_chatter (st : Station) :
    (st.dropRx).chatter = st.chatter := rfl
@[simp] theorem Station.dropRx_rep (st : Station) :
    (st.dropRx).rep = st.rep := rfl
@[simp] theorem Station.dropRx_scan (st : Station) :
    (st.dropRx).scan = st.scan := rfl
@[simp] theorem Station.dropRx_keysDiscarded (st : Station) :
    (st.dropRx).keysDiscarded = st.keysDiscarded := rfl
@[simp] theorem Station.dropRx_scanRejects (st : Station) :
    (st.dropRx).scanRejects = st.scanRejects := rfl
@[simp] theorem Station.setPaused_link (st : Station) (f : Bool) :
    (st.setPaused f).link = st.link := rfl
@[simp] theorem Station.setPaused_input (st : Station) (f : Bool) :
    (st.setPaused f).input = st.input := rfl
@[simp] theorem Station.setPaused_error (st : Station) (f : Bool) :
    (st.setPaused f).error = st.error := rfl
@[simp] theorem Station.setPaused_profile (st : Station) (f : Bool) :
    (st.setPaused f).profile = st.profile := rfl
@[simp] theorem Station.setPaused_sheet (st : Station) (f : Bool) :
    (st.setPaused f).sheet = st.sheet := rfl
@[simp] theorem Station.setPaused_message (st : Station) (f : Bool) :
    (st.setPaused f).message = st.message := rfl
@[simp] theorem Station.setPaused_typeAhead (st : Station) (f : Bool) :
    (st.setPaused f).typeAhead = st.typeAhead := rfl
@[simp] theorem Station.setPaused_shiftHolders (st : Station) (f : Bool) :
    (st.setPaused f).shiftHolders = st.shiftHolders := rfl
@[simp] theorem Station.setPaused_altHolders (st : Station) (f : Bool) :
    (st.setPaused f).altHolders = st.altHolders := rfl
@[simp] theorem Station.setPaused_chatter (st : Station) (f : Bool) :
    (st.setPaused f).chatter = st.chatter := rfl
@[simp] theorem Station.setPaused_rep (st : Station) (f : Bool) :
    (st.setPaused f).rep = st.rep := rfl
@[simp] theorem Station.setPaused_scan (st : Station) (f : Bool) :
    (st.setPaused f).scan = st.scan := rfl
@[simp] theorem Station.setPaused_keysDiscarded (st : Station) (f : Bool) :
    (st.setPaused f).keysDiscarded = st.keysDiscarded := rfl
@[simp] theorem Station.setPaused_scanRejects (st : Station) (f : Bool) :
    (st.setPaused f).scanRejects = st.scanRejects := rfl
@[simp] theorem Station.expect_link (st : Station) (part : LinkPart) :
    (st.expect part).link = st.link := rfl
@[simp] theorem Station.expect_input (st : Station) (part : LinkPart) :
    (st.expect part).input = st.input := rfl
@[simp] theorem Station.expect_error (st : Station) (part : LinkPart) :
    (st.expect part).error = st.error := rfl
@[simp] theorem Station.expect_profile (st : Station) (part : LinkPart) :
    (st.expect part).profile = st.profile := rfl
@[simp] theorem Station.expect_sheet (st : Station) (part : LinkPart) :
    (st.expect part).sheet = st.sheet := rfl
@[simp] theorem Station.expect_message (st : Station) (part : LinkPart) :
    (st.expect part).message = st.message := rfl
@[simp] theorem Station.expect_typeAhead (st : Station) (part : LinkPart) :
    (st.expect part).typeAhead = st.typeAhead := rfl
@[simp] theorem Station.expect_shiftHolders (st : Station) (part : LinkPart) :
    (st.expect part).shiftHolders = st.shiftHolders := rfl
@[simp] theorem Station.expect_altHolders (st : Station) (part : LinkPart) :
    (st.expect part).altHolders = st.altHolders := rfl
@[simp] theorem Station.expect_chatter (st : Station) (part : LinkPart) :
    (st.expect part).chatter = st.chatter := rfl
@[simp] theorem Station.expect_rep (st : Station) (part : LinkPart) :
    (st.expect part).rep = st.rep := rfl
@[simp] theorem Station.expect_scan (st : Station) (part : LinkPart) :
    (st.expect part).scan = st.scan := rfl
@[simp] theorem Station.expect_keysDiscarded (st : Station) (part : LinkPart) :
    (st.expect part).keysDiscarded = st.keysDiscarded := rfl
@[simp] theorem Station.expect_scanRejects (st : Station) (part : LinkPart) :
    (st.expect part).scanRejects = st.scanRejects := rfl
@[simp] theorem Station.enterHeld_link (st : Station) (e : OpError) :
    (st.enterHeld e).link = st.link := by simp [Station.enterHeld]
@[simp] theorem Station.enterHeld_input (st : Station) (e : OpError) :
    (st.enterHeld e).input = .held := by simp [Station.enterHeld]
@[simp] theorem Station.enterHeld_error (st : Station) (e : OpError) :
    (st.enterHeld e).error = some e := by simp [Station.enterHeld]
@[simp] theorem Station.enterHeld_profile (st : Station) (e : OpError) :
    (st.enterHeld e).profile = st.profile := by simp [Station.enterHeld]
@[simp] theorem Station.enterHeld_sheet (st : Station) (e : OpError) :
    (st.enterHeld e).sheet = st.sheet := by simp [Station.enterHeld]
@[simp] theorem Station.enterHeld_message (st : Station) (e : OpError) :
    (st.enterHeld e).message = st.message := by simp [Station.enterHeld]
@[simp] theorem Station.enterHeld_typeAhead (st : Station) (e : OpError) :
    (st.enterHeld e).typeAhead = [] := by simp [Station.enterHeld]
@[simp] theorem Station.enterHeld_shiftHolders (st : Station) (e : OpError) :
    (st.enterHeld e).shiftHolders = st.shiftHolders := by simp [Station.enterHeld]
@[simp] theorem Station.enterHeld_altHolders (st : Station) (e : OpError) :
    (st.enterHeld e).altHolders = st.altHolders := by simp [Station.enterHeld]
@[simp] theorem Station.enterHeld_chatter (st : Station) (e : OpError) :
    (st.enterHeld e).chatter = st.chatter := by simp [Station.enterHeld]
@[simp] theorem Station.enterHeld_rep (st : Station) (e : OpError) :
    (st.enterHeld e).rep = none := by simp [Station.enterHeld]
@[simp] theorem Station.enterHeld_scan (st : Station) (e : OpError) :
    (st.enterHeld e).scan = st.scan := by simp [Station.enterHeld]
@[simp] theorem Station.enterHeld_keysDiscarded (st : Station) (e : OpError) :
    (st.enterHeld e).keysDiscarded = st.keysDiscarded := by simp [Station.enterHeld]
@[simp] theorem Station.enterHeld_scanRejects (st : Station) (e : OpError) :
    (st.enterHeld e).scanRejects = st.scanRejects := by simp [Station.enterHeld]

/-! ### Station: what setInput and dropScan set -/

@[simp] theorem Station.setInput_input (st : Station) (i : InputState) : (st.setInput i).input = i := by
  unfold Station.setInput; split <;> simp_all
@[simp] theorem Station.dropScan_scan (st : Station) : st.dropScan.scan = none := by
  unfold Station.dropScan; split <;> simp_all
@[simp] theorem Station.setCursor_cursor (st : Station) (a : Nat) : (st.setCursor a).sheet.cursor = a := by
  unfold Station.setCursor; split <;> simp_all
@[simp] theorem Station.setTop_top (st : Station) (t : Nat) : (st.setTop t).sheet.top = t := by
  unfold Station.setTop; split <;> simp_all
@[simp] theorem Station.setInsert_insert (st : Station) (f : Bool) : (st.setInsert f).sheet.insert = f := by
  unfold Station.setInsert; split <;> simp_all

end Sys2Proof.Machine
end

