-- ==== Sys2Proof/Laws/Sheets.lean ====
section
/-! SUPPORT. Sheets: which field an address or a number finds, what the cells read as after a write, and the field table
after an insertion. -/

namespace Sys2Proof.Machine

/-! ### Looking fields up -/

/-- On a sound table the field that covers an address is found there. -/
theorem Sheet.fieldAt_of_covers {sh : Sheet} (h : sh.FieldsSound) {f : Field} (hf : f ∈ sh.fields) {a : Nat}
    (ha : f.covers a = true) : sh.fieldAt a = some f := by
  obtain ⟨before, after, hs⟩ := List.append_of_mem hf
  have hp := h.2
  rw [hs] at hp
  have hb : ∀ g ∈ before, g.covers a = false := by
    intro g hg
    have := (List.pairwise_append.mp hp).2.2 g hg f (by simp)
    simp [Field.covers] at ha ⊢
    omega
  unfold Sheet.fieldAt
  rw [hs, List.find?_append, List.find?_eq_none.mpr (by intro g hg; simp [hb g hg])]
  simp [ha]

/-- The field found at an address covers it and is in the table. -/
theorem Sheet.fieldAt_some {sh : Sheet} {a : Nat} {f : Field} (h : sh.fieldAt a = some f) :
    f ∈ sh.fields ∧ f.covers a = true :=
  ⟨List.mem_of_find?_eq_some h, by have := List.find?_some h; simpa using this⟩

/-- On a sound table the field that carries a number is found by it. -/
theorem Sheet.fieldNumbered_of_mem {sh : Sheet} (h : sh.FieldsSound) {f : Field} (hf : f ∈ sh.fields) :
    sh.fieldNumbered f.number = some f := by
  obtain ⟨before, after, hs⟩ := List.append_of_mem hf
  have hp := h.2
  rw [hs] at hp
  have hb : ∀ g ∈ before, g.number ≠ f.number := fun g hg =>
    ((List.pairwise_append.mp hp).2.2 g hg f (by simp)).2
  unfold Sheet.fieldNumbered
  rw [hs, List.find?_append, List.find?_eq_none.mpr (by intro g hg; simp [hb g hg])]
  simp

/-- The field found by a number carries it and is in the table. -/
theorem Sheet.fieldNumbered_some {sh : Sheet} {k : Nat} {f : Field} (h : sh.fieldNumbered k = some f) :
    f ∈ sh.fields ∧ f.number = k :=
  ⟨List.mem_of_find?_eq_some h, by have := List.find?_some h; simpa using this⟩

/-- A number that no field carries finds none. -/
theorem Sheet.fieldNumbered_none {sh : Sheet} {k : Nat} (h : ∀ f ∈ sh.fields, f.number ≠ k) :
    sh.fieldNumbered k = none := List.find?_eq_none.mpr (by simpa using h)

/-- The INPUT field that holds an address is found there. -/
theorem Sheet.inputAt_of_covers {sh : Sheet} (h : sh.FieldsSound) {f : Field} (hf : f ∈ sh.fields)
    (hi : f.isInput = true) {a : Nat} (ha : f.covers a = true) : sh.inputAt a = some f := by
  unfold Sheet.inputAt
  rw [Sheet.fieldAt_of_covers h hf ha]
  simp [Option.filter, hi]

/-- Outside every INPUT field none is found. -/
theorem Sheet.inputAt_none {sh : Sheet} {a : Nat} (h : ∀ f ∈ sh.fields, f.isInput = true → f.covers a = false) :
    sh.inputAt a = none := by
  unfold Sheet.inputAt
  cases hf : sh.fieldAt a with
  | none => rfl
  | some f =>
    obtain ⟨hm, hc⟩ := Sheet.fieldAt_some hf
    cases hi : f.isInput with
    | false => simp [Option.filter, hi]
    | true => rw [h f hm hi] at hc; cases hc

/-- The INPUT field found at an address is an INPUT field of the table that covers it. -/
theorem Sheet.inputAt_some {sh : Sheet} {a : Nat} {f : Field} (h : sh.inputAt a = some f) :
    f ∈ sh.fields ∧ f.isInput = true ∧ f.covers a = true := by
  unfold Sheet.inputAt at h
  cases hf : sh.fieldAt a with
  | none => rw [hf] at h; cases h
  | some g =>
    rw [hf] at h
    obtain ⟨hm, hc⟩ := Sheet.fieldAt_some hf
    cases hi : g.isInput with
    | false => simp [Option.filter, hi] at h
    | true =>
      simp [Option.filter, hi] at h
      subst h
      exact ⟨hm, hi, hc⟩

/-! ### Cells -/

/-- A cell outside the run written reads as before. -/
theorem Sheet.cell_putCells_outside (sh : Sheet) (a b : Nat) (chars : List Byte)
    (h : b < a ∨ a + chars.length ≤ b) : (sh.putCells a chars).cell b = sh.cell b :=
  Memory.read_writeList_outside _ _ _ _ h

/-- A cell of the run written reads as its character. -/
theorem Sheet.cell_putCells_inside (sh : Sheet) (a i : Nat) (chars : List Byte) (h : Memory.wf cellDefault sh.cells)
    (hi : i < chars.length) : (sh.putCells a chars).cell (a + i) = chars[i] :=
  Memory.read_writeList_inside _ _ _ _ h hi

/-- A run written over a whole field becomes its content. -/
theorem Sheet.content_putCells (sh : Sheet) (f : Field) (chars : List Byte) (h : Memory.wf cellDefault sh.cells)
    (hl : chars.length = f.length) : (sh.putCells f.start chars).content f = chars := by
  apply List.ext_getElem
  · simp [Sheet.content, hl]
  · intro i h1 h2
    simp only [Sheet.content, Memory.getElem_readList]
    exact Memory.read_writeList_inside _ _ _ _ h h2

@[simp] theorem Sheet.length_content (sh : Sheet) (f : Field) : (sh.content f).length = f.length := by
  simp [Sheet.content]

/-- The content of a field depends on the cells alone. -/
theorem Sheet.content_congr {sh sh' : Sheet} (h : sh.cells = sh'.cells) (f : Field) : sh.content f = sh'.content f := by
  simp [Sheet.content, h]

/-! ### Insertion in start order -/

/-- What an insertion holds: the field and what was there. -/
@[simp] theorem mem_insertByStart (f g : Field) (fs : List Field) : g ∈ insertByStart f fs ↔ g = f ∨ g ∈ fs := by
  induction fs with
  | nil => simp [insertByStart]
  | cons h fs ih =>
    unfold insertByStart
    split <;> simp [ih]
    tauto

/-- Inserting a field that overlaps none and shares no number keeps the table in order. -/
theorem insertByStart_pairwise (f : Field) (fs : List Field)
    (h : fs.Pairwise fun f g => f.start + f.length ≤ g.start ∧ f.number ≠ g.number)
    (hf : ∀ g ∈ fs, g.number ≠ f.number ∧ (f.start + f.length ≤ g.start ∨ g.start + g.length ≤ f.start))
    (hl : 1 ≤ f.length) :
    (insertByStart f fs).Pairwise fun f g => f.start + f.length ≤ g.start ∧ f.number ≠ g.number := by
  induction fs with
  | nil => simp [insertByStart]
  | cons g fs ih =>
    obtain ⟨h1, h2⟩ := List.pairwise_cons.mp h
    have hg := hf g (by simp)
    unfold insertByStart
    split
    · rename_i hlt
      refine List.pairwise_cons.mpr ⟨fun e he => ?_, h⟩
      rcases List.mem_cons.mp he with rfl | he
      · exact ⟨by omega, fun x => hg.1 x.symm⟩
      · have := h1 e he
        exact ⟨by omega, fun x => (hf e (by simp [he])).1 x.symm⟩
    · rename_i hlt
      refine List.pairwise_cons.mpr ⟨fun e he => ?_, ih h2 fun e he => hf e (by simp [he])⟩
      rcases (mem_insertByStart f e fs).mp he with rfl | he
      · exact ⟨by omega, hg.1⟩
      · exact h1 e he

/-! ### Display lines -/

/-- The lines a run of cells marks are the lines that show one of them. -/
theorem Sheet.lineShows_eq (sh : Sheet) (a n line : Nat) : sh.lineShows a n line = sh.showsCells a n line := by
  unfold Sheet.lineShows Sheet.showsCells
  congr 1
  apply propext
  constructor
  · rintro ⟨h1, h2, h3, h4⟩
    refine ⟨h1, ?_⟩
    by_cases h : a / 80 = sh.rowOnLine line
    · exact ⟨0, h2, by simpa using h⟩
    · exact ⟨sh.rowOnLine line * 80 - a, by omega, by rw [show a + (sh.rowOnLine line * 80 - a) = sh.rowOnLine line * 80 by omega]; omega⟩
  · rintro ⟨h1, i, hi, h⟩
    exact ⟨h1, by omega, by omega, by omega⟩

/-- R36: the stale marks after marking. -/
theorem Station.markLines_stale (st : Station) (p : Nat → Bool) (i : Fin 25) :
    (st.markLines p).dr.stale[i] = (st.dr.stale[i] || (st.attached && p i.1)) := by
  unfold Station.markLines
  split
  · rename_i h; simp [h]
  · rename_i h; simp [h]

end Sys2Proof.Machine
end

