-- ==== Sys2Proof/Laws/Editing.lean ====
section
/-! SUPPORT. Operator moves and errors: everything each can do to a station, said once. -/

namespace Sys2Proof.Machine

/-- A cursor set is the sheet's cursor, and only the display refresh unit shows it besides. -/
theorem Station.setCursor_eq (st : Station) (a : Nat) :
    st.setCursor a = { st with sheet := { st.sheet with cursor := a }, dr := (st.setCursor a).dr } := by
  unfold Station.setCursor
  split
  · rename_i h; rw [← h]
  · unfold Station.markCursor; split <;> rfl

theorem Station.markCursor_eq (st : Station) : st.markCursor = { st with dr := st.markCursor.dr } := by
  unfold Station.markCursor; split <;> rfl

theorem Station.markLines_eq (st : Station) (p : Nat → Bool) :
    st.markLines p = { st with dr := (st.markLines p).dr } := by
  unfold Station.markLines; split <;> rfl

/-- A view top set is the sheet's view top, and only the display refresh unit shows it besides. -/
theorem Station.setTop_eq (st : Station) (t : Nat) :
    st.setTop t = { st with sheet := { st.sheet with top := t }, dr := (st.setTop t).dr } := by
  unfold Station.setTop
  split
  · rename_i h; rw [← h]
  · rw [Station.markCursor_eq, Station.markLines_eq]

/-- R13, R20: a move carried out sets the cursor, and the view top by the follow rule, and changes nothing else but the
display refresh unit. -/
theorem Station.carryOut_eq (st : Station) (target : Nat) (top : Option Nat) :
    st.carryOut target top =
      { st with
          sheet := { st.sheet with
            cursor := target
            top := st.sheet.followTop (target / 80) (top.getD st.sheet.top) }
          dr := (st.carryOut target top).dr } := by
  have h : (((st.setCursor target).markCursor.setTop (top.getD st.sheet.top))).sheet =
      { st.sheet with cursor := target, top := top.getD st.sheet.top } := by
    rw [Station.setTop_eq, Station.markCursor_eq, Station.setCursor_eq]
  have h2 : st.carryOut target top =
      { ((st.setCursor target).markCursor.setTop (top.getD st.sheet.top)) with
          sheet := (st.carryOut target top).sheet, dr := (st.carryOut target top).dr } := by
    unfold Station.carryOut Station.follow
    rw [Station.setTop_eq]
  have h3 : (st.carryOut target top).sheet = { st.sheet with
      cursor := target, top := st.sheet.followTop (target / 80) (top.getD st.sheet.top) } := by
    unfold Station.carryOut Station.follow
    rw [Station.setTop_eq, h]
    rfl
  rw [h2, h3, Station.setTop_eq, Station.markCursor_eq, Station.setCursor_eq]

/-- R96: an operator error changes the input state, the error code, the repeat, the type-ahead queue and the display
refresh unit, and leaves the sheet alone. -/
theorem Station.enterHeld_eq (st : Station) (e : OpError) :
    st.enterHeld e =
      { st with input := .held, error := some e, rep := none, typeAhead := [], dr := (st.enterHeld e).dr } := by
  unfold Station.enterHeld Station.requestAlarm Station.markIndicator
  split <;> rw [Station.markLines_eq]

/-- Cells written change the cells and the display refresh unit. -/
theorem Station.putCells_eq (st : Station) (a : Nat) (chars : List Byte) :
    st.putCells a chars = { st with sheet := st.sheet.putCells a chars, dr := (st.putCells a chars).dr } := by
  unfold Station.putCells Station.markCells
  rw [Station.markLines_eq]

/-- R112: a passed exit check changes only the cells of its field and the register. -/
theorem Station.passExit_eq (st : Station) (f : Field) :
    st.passExit f =
      { st with
          sheet := { st.sheet with cells := (st.passExit f).sheet.cells, edited := none }
          dr := (st.passExit f).dr } := by
  unfold Station.passExit Station.justifyField Station.setEdited
  split
  · rfl
  · rw [Station.putCells_eq]; rfl

/-- R13, R112, R113: an operator move is carried out, is carried out after a passed exit check, or fails it. -/
theorem Station.operatorMove_cases (st : Station) (tu : Vector ClassRec 15) (target : Nat) (top : Option Nat) :
    (st.sheet.leaving target = none ∧ st.operatorMove tu target top = st.carryOut target top) ∨
    (∃ f, st.sheet.leaving target = some f ∧ st.sheet.valueChecks tu f = none ∧
      st.operatorMove tu target top = (st.passExit f).carryOut target top) ∨
    ∃ f e, st.sheet.leaving target = some f ∧ st.sheet.valueChecks tu f = some e ∧
      st.operatorMove tu target top = st.failCheck f e := by
  unfold Station.operatorMove
  cases hl : st.sheet.leaving target with
  | none => exact .inl ⟨rfl, rfl⟩
  | some f =>
    cases hv : st.sheet.valueChecks tu f with
    | none => exact .inr (.inl ⟨f, rfl, hv, by simp [hv]⟩)
    | some e => exact .inr (.inr ⟨f, e, rfl, hv, by simp [hv]⟩)

/-- With no edited field nothing is left. -/
theorem Sheet.leaving_none {sh : Sheet} (h : sh.edited = none) (target : Nat) : sh.leaving target = none := by
  simp [Sheet.leaving, Sheet.editedField, h]

/-- R13: on a sound sheet a move out of the edited field leaves that field. -/
theorem Sheet.leaving_some {sh : Sheet} (h : sh.Sound) {f : Field} (hf : f ∈ sh.fields)
    (he : sh.edited = some f.number) {target : Nat} (ht : f.covers target = false) : sh.leaving target = some f := by
  obtain ⟨_, _, _, _, _, hfs, _, hed⟩ := h
  obtain ⟨g, hg, hn, hc⟩ := hed f.number he
  have hgf : g = f := by
    have h1 := Sheet.fieldNumbered_of_mem hfs hf
    have h2 := Sheet.fieldNumbered_of_mem hfs hg
    rw [hn] at h2
    exact Option.some.inj (h2.symm.trans h1)
  subst hgf
  simp [Sheet.leaving, Sheet.editedField, he, Sheet.fieldNumbered_of_mem hfs hf, Option.filter, hc, ht]

/-- R13: a move inside the edited field leaves none. -/
theorem Sheet.leaving_inside {sh : Sheet} (h : sh.FieldsSound) {f : Field} (hf : f ∈ sh.fields)
    (he : sh.edited = some f.number) {target : Nat} (ht : f.covers target = true) : sh.leaving target = none := by
  simp [Sheet.leaving, Sheet.editedField, he, Sheet.fieldNumbered_of_mem h hf, Option.filter, ht]

/-- R111: justification keeps the length of a content. -/
theorem length_justified (j : Justify) (content : List Byte) : (justified j content).length = content.length := by
  have drop : (entryOf content).length ≤ content.length := by
    unfold entryOf dropTrailing
    have h1 := (List.dropWhile_sublist (fun b => b == blankChar) (l := content.reverse)).length_le
    have h2 := (List.dropWhile_sublist (fun b => b == blankChar)
      (l := (content.reverse.dropWhile fun b => b == blankChar).reverse)).length_le
    simp at h1 h2
    omega
  unfold justified
  split
  · rfl
  · split <;> simp <;> omega

end Sys2Proof.Machine
end

