-- ==== Sys2Proof/Laws/Stations.lean ====
section
/-! SUPPORT. Replacing and changing one station: what the station table reads as afterwards, and the station bytes. -/

namespace Sys2Proof.Machine

/-- The station just put in place reads back. -/
@[simp] theorem State.station_setStation_same (s : State) (n : StationIx) (st : Station) :
    (s.setStation n st).station n = st := by
  simp [State.station, State.setStation]

/-- Every other station is left alone. -/
theorem State.station_setStation_ne (s : State) {n m : StationIx} (st : Station) (h : m ≠ n) :
    (s.setStation n st).station m = s.station m := by
  have : n.1 ≠ m.1 := fun e => h (Fin.ext e.symm)
  simp [State.station, State.setStation, this]

/-- Both cases at once. -/
theorem State.station_setStation (s : State) (n m : StationIx) (st : Station) :
    (s.setStation n st).station m = if m = n then st else s.station m := by
  by_cases h : m = n
  · subst h; simp
  · rw [State.station_setStation_ne _ _ h, if_neg h]

/-- The last of two replacements counts. -/
@[simp] theorem State.setStation_setStation (s : State) (n : StationIx) (st st' : Station) :
    (s.setStation n st).setStation n st' = s.setStation n st' := by
  simp [State.setStation]

/-- Putting a station back where it is changes nothing. -/
@[simp] theorem State.setStation_self (s : State) (n : StationIx) : s.setStation n (s.station n) = s := by
  cases s; simp [State.setStation, State.station]

/-- A change of a station is its replacement. -/
theorem State.onStation_eq (s : State) (n : StationIx) (f : Station → Station) :
    s.onStation n f = s.setStation n (f (s.station n)) := rfl

/-- The station changed reads as the function's value. -/
@[simp] theorem State.station_onStation_same (s : State) (n : StationIx) (f : Station → Station) :
    (s.onStation n f).station n = f (s.station n) := State.station_setStation_same s n _

/-- A change of a station leaves every other alone. -/
theorem State.station_onStation_ne (s : State) {n m : StationIx} (f : Station → Station) (h : m ≠ n) :
    (s.onStation n f).station m = s.station m := State.station_setStation_ne s _ h

/-- Two changes of one station are one. -/
@[simp] theorem State.onStation_onStation (s : State) (n : StationIx) (f g : Station → Station) :
    (s.onStation n f).onStation n g = s.onStation n (g ∘ f) := by
  simp [State.onStation_eq]

/-- A change after a replacement. -/
@[simp] theorem State.onStation_setStation (s : State) (n : StationIx) (st : Station) (f : Station → Station) :
    (s.setStation n st).onStation n f = s.setStation n (f st) := by
  simp [State.onStation_eq]

/-- The station byte of an index names it. -/
@[simp] theorem stationOf_stationByte (n : StationIx) : stationOf (stationByte n) = some n := by revert n; decide

/-- The station byte of an index is 1..12. -/
theorem stationByte_toNat (n : StationIx) : (stationByte n).toNat = n.1 + 1 := by revert n; decide

/-- No two stations have one byte. -/
theorem stationByte_inj {n m : StationIx} (h : stationByte n = stationByte m) : n = m := by
  have := congrArg stationOf h
  simpa using this

/-- A byte outside 1..12 names no station. -/
theorem stationOf_none {b : Byte} (h : ¬ (1 ≤ b.toNat ∧ b.toNat ≤ 12)) : stationOf b = none := by
  unfold stationOf; rw [dif_neg h]

/-- A station byte is not 0. -/
theorem stationByte_ne_zero (n : StationIx) : stationByte n ≠ 0x00#8 := by revert n; decide

end Sys2Proof.Machine
end

