-- ==== Sys2Proof/Laws/HostLine.lean ====
section
/-! SUPPORT. The host line: what a whole frame, its dispatch and its answer can do, each said once. -/

namespace Sys2Proof.Machine

/-- A frame command is the receipt of a whole frame of its kind. -/
theorem exec_command (k : DownKind) (st : Byte) (p : List Byte) (s : State) :
    exec (k.command st p) s = .next (s.takeFrame k.code st p) := by
  cases k <;> rfl

/-- The code of a kind names it. -/
@[simp] theorem DownKind.ofByte_code (k : DownKind) : DownKind.ofByte k.code = some k := by cases k <;> rfl

/-- A byte names a kind only when it is that kind's code. -/
theorem DownKind.code_of_ofByte {b : Byte} {k : DownKind} (h : DownKind.ofByte b = some k) : k.code = b := by
  unfold DownKind.ofByte at h
  split at h <;> first
    | (cases h; rename_i hb; exact BitVec.eq_of_toNat_eq hb.symm)
    | cases h

/-- A byte that is no kind's code names none. -/
theorem DownKind.ofByte_none {b : Byte} (h : ∀ k : DownKind, k.code ≠ b) : DownKind.ofByte b = none := by
  cases hk : DownKind.ofByte b with
  | none => rfl
  | some k => exact absurd (DownKind.code_of_ofByte hk) (h k)

/-- A byte is the one being sent, read back, exactly when it has a good stop bit and is the first byte of the answer
being sent that has not been read back. -/
theorem State.readsBack_iff (s : State) (b : Byte) (badStop : Bool) :
    s.readsBack b badStop = true ↔
      badStop = false ∧ ∃ a, s.answer = some a ∧ a.sending = true ∧ a.frame[a.readBack]? = some b := by
  unfold State.readsBack State.byteBeingSent
  cases s.answer with
  | none => simp
  | some a => cases ha : a.sending <;> simp [ha]

/-- While no answer is being sent, no byte is read back. -/
theorem State.readsBack_idle {s : State} (hh : s.hostDriverEnabled = false) (b : Byte) (badStop : Bool) :
    s.readsBack b badStop = false := by
  rw [Bool.eq_false_iff]
  intro h
  obtain ⟨-, a, ha, hs, -⟩ := (State.readsBack_iff s b badStop).mp h
  simp [State.hostDriverEnabled, ha, hs] at hh

/-- A byte with a good stop bit that is not the one being sent arrives from the line. -/
theorem State.takeByte_good {s : State} {b : Byte} (h : s.readsBack b false = false) :
    s.takeByte b false = s.goodByte b := by simp [State.takeByte, h]

/-- A byte with a bad stop bit arrives from the line, whatever it is. -/
theorem State.takeByte_badStop (s : State) (b : Byte) : s.takeByte b true = s.abortingByte := by
  simp [State.takeByte, State.readsBack]

/-- The byte being sent, read back, moves the answer on and leaves the rest. -/
theorem State.takeByte_readBack {s : State} {a : Answer} {b : Byte} (ha : s.answer = some a) (hs : a.sending = true)
    (hb : a.frame[a.readBack]? = some b) :
    s.takeByte b false = { s with answer := some { a with readBack := a.readBack + 1 }, quietLeft := 2 } := by
  have h : s.readsBack b false = true := (State.readsBack_iff s b false).mpr ⟨rfl, a, ha, hs, hb⟩
  simp [State.takeByte, h, State.advanceAnswer, ha, quietTime]

/-- What a whole frame does while no answer is being sent. -/
theorem State.takeFrame_ready {s : State} (hh : s.hostDriverEnabled = false) (kind st : Byte) {p : List Byte}
    (hp : p.length ≤ 2048) : s.takeFrame kind st p = s.byteSeen.hunt.answerFrame kind st p := by
  simp [State.takeFrame, State.takeWhole, hh, maxPayload, Nat.not_lt.mpr hp]

/-- While RUNNING a frame of a known kind goes to its handling. -/
theorem State.answerFrame_running {s : State} (hs : s.store.phase = .running) (k : DownKind) (st : Byte)
    (p : List Byte) : s.answerFrame k.code st p = (s.handle k st p).2.respond st (s.handle k st p).1 := by
  have : ¬ (s.store.phase = .starting ∧ k.code ≠ DownKind.status.code) := by rw [hs]; exact fun h => nomatch h.1
  simp only [State.answerFrame, State.dispatch, if_neg this, DownKind.ofByte_code]

/-- What a frame command does while the controller serves. -/
theorem exec_serving {s : State} (hs : s.Serving) (k : DownKind) (st : Byte) {p : List Byte} (hp : p.length ≤ 2048) :
    exec (k.command st p) s =
      .next ((s.byteSeen.hunt.handle k st p).2.respond st (s.byteSeen.hunt.handle k st p).1) := by
  rw [exec_command, State.takeFrame_ready hs.2 _ _ hp, State.answerFrame_running (s := s.byteSeen.hunt) hs.1]

/-- An answer that is no refusal, to a frame just received in t. -/
theorem respond_reply (t : State) (st : Byte) (k : UpKind) (p : List Byte) (hk : k ≠ .refuse) :
    (t.byteSeen.hunt).respond st (reply k p) = t.withAnswer st k p := by
  simp [State.respond, reply, State.withAnswer, State.byteSeen, State.hunt, hk, quietTime]; rfl

/-- An ACCEPT to a frame just received in t. -/
theorem respond_accept (t : State) (st : Byte) (p : List Byte) :
    (t.byteSeen.hunt).respond st (accept p) = t.withAnswer st .accept p := respond_reply t st .accept p (by decide)

/-- A refusal of a frame just received in t. -/
theorem respond_refuse (t : State) (st : Byte) (r : Reason) (a d : Nat) :
    (t.byteSeen.hunt).respond st (refuse r a d) = t.withRefusal st r.code (byte1 a) d := by
  simp [State.respond, refuse, reply, State.withRefusal, State.withAnswer, State.byteSeen, State.hunt, quietTime]; rfl

/-- A frame sent to a station its kind does not serve is refused and changes nothing. -/
theorem State.handle_bad (s : State) (k : DownKind) (st : Byte) (p : List Byte) (h : k.serves st = false) :
    s.handle k st p = (refuseStation st, s) := by
  cases k
  case poll =>
    simp only [DownKind.serves, decide_eq_false_iff_not] at h
    have : st ≠ 0x00#8 := by rintro rfl; exact h (by decide)
    simp only [State.handle, if_neg this, toStation]
    rw [stationOf_none (by omega)]
  case write =>
    simp only [DownKind.serves, decide_eq_false_iff_not] at h
    simp only [State.handle, toStation]; rw [stationOf_none h]
  case readForm =>
    simp only [DownKind.serves, decide_eq_false_iff_not] at h
    simp only [State.handle, toStation]; rw [stationOf_none h]
  all_goals
    have : st ≠ 0x00#8 := by simpa [DownKind.serves] using h
    simp only [State.handle, toController, if_neg this]

/-- A frame to station 0 of a kind that goes to station 0 reaches its handling. -/
@[simp] theorem toController_zero (s : State) (h : Reply × State) : toController 0x00#8 s h = h := by
  simp [toController]

/-- A frame to a station 1..12 reaches the handling for it. -/
@[simp] theorem toStation_stationByte (n : StationIx) (s : State) (h : StationIx → Reply × State) :
    toStation (stationByte n) s h = h n := by
  simp [toStation]

/-- The high and low byte of a number below 65536 read back as it. -/
@[simp] theorem number_bytes2 {n : Nat} (h : n < 65536) : number (bytes2 n) = n := by
  simp [number, bytes2]; omega

theorem number_pair {n : Nat} (h : n < 65536) : number [BitVec.ofNat 8 (n / 256), BitVec.ofNat 8 n] = n :=
  number_bytes2 h

@[simp] theorem length_bytes2 (n : Nat) : (bytes2 n).length = 2 := rfl

end Sys2Proof.Machine
end

