-- ==== Sys2Proof/WellFormed.lean ====
section
/-! DEFINITION. Which commands the outside world can send: the limits that the formats of chapter 11 set on operands.
The machine's meanings are total and do not rely on them. -/

namespace Sys2Proof

/-- R168: the length field of a down frame that is not aborted gives at most 2048 payload bytes. -/
def payloadFits (payload : List Byte) : Bool := decide (payload.length ≤ 2048)

/-- R73, R193: the key code of a KEY message is 1..127. -/
def keyCodeOk (code : Byte) : Bool := decide (1 ≤ code.toNat ∧ code.toNat ≤ 127)

/-- The limits on a command's operands. -/
def Instr.wellFormed : Instr → Bool
  | .unknownKind _ _ payload => payloadFits payload
  | .poll _ payload => payloadFits payload
  | .write _ payload => payloadFits payload
  | .readForm _ payload => payloadFits payload
  | .status _ payload => payloadFits payload
  | .stationSetup _ payload => payloadFits payload
  | .stationRead _ payload => payloadFits payload
  | .classSet _ payload => payloadFits payload
  | .keymapSet _ payload => payloadFits payload
  | .attentionRead _ payload => payloadFits payload
  | .attentionClear _ payload => payloadFits payload
  | .attentionMask _ payload => payloadFits payload
  | .countersRead _ payload => payloadFits payload
  | .broadcastMessage _ payload => payloadFits payload
  | .restart _ payload => payloadFits payload
  | .directoryRead _ payload => payloadFits payload
  | .loadOpen _ payload => payloadFits payload
  | .loadData _ payload => payloadFits payload
  | .loadClose _ payload => payloadFits payload
  | .loadAbandon _ payload => payloadFits payload
  | .eraseSlots _ payload => payloadFits payload
  | .protect _ payload => payloadFits payload
  | .keyDown _ code _ => keyCodeOk code
  | .keyUp _ code _ => keyCodeOk code
  | .powerOnReset _ _ => true
  | .mark => true
  | .quietTimerExpiry => true
  | .frameAbort => true
  | .frameGapTimeout => true
  | .checkFail _ => true
  | .answerSendStart => true
  | .answerAbandoned _ _ => true
  | .answerComplete => true
  | .startUpScanComplete => true
  | .rowProgramComplete _ => true
  | .slotEraseComplete _ => true
  | .controlUpdateComplete _ => true
  | .scanch _ _ => true
  | .pause _ => true
  | .resume _ => true
  | .present _ => true
  | .linkByteTimeout _ => true
  | .silenceTimerExpiry _ => true
  | .repeatTimerExpiry _ => true
  | .gapTimerExpiry _ => true
  | .probeTimerExpiry _ => true
  | .startMessage _ => true
  | .messageComplete _ => true
  | .frameForOtherUnit => true
  | .hostLineByte _ _ => true
  | .linkByte _ _ _ _ => true

end Sys2Proof
end

