-- ==== Sys2Proof/Laws/PerInstr.lean ====
section
/-! SUPPORT. The family F of statements made per command: what a command's well-formedness says of its operands. -/

namespace Sys2Proof

/-- The payload a frame command carries (section 11.2). -/
def Instr.payload : Instr → Option (List Byte)
  | .powerOnReset _ _ => none
  | .mark => none
  | .quietTimerExpiry => none
  | .frameAbort => none
  | .frameGapTimeout => none
  | .checkFail _ => none
  | .unknownKind _ _ payload => some payload
  | .answerSendStart => none
  | .answerAbandoned _ _ => none
  | .answerComplete => none
  | .poll _ payload => some payload
  | .write _ payload => some payload
  | .readForm _ payload => some payload
  | .status _ payload => some payload
  | .stationSetup _ payload => some payload
  | .stationRead _ payload => some payload
  | .classSet _ payload => some payload
  | .keymapSet _ payload => some payload
  | .attentionRead _ payload => some payload
  | .attentionClear _ payload => some payload
  | .attentionMask _ payload => some payload
  | .countersRead _ payload => some payload
  | .broadcastMessage _ payload => some payload
  | .restart _ payload => some payload
  | .directoryRead _ payload => some payload
  | .loadOpen _ payload => some payload
  | .loadData _ payload => some payload
  | .loadClose _ payload => some payload
  | .loadAbandon _ payload => some payload
  | .eraseSlots _ payload => some payload
  | .protect _ payload => some payload
  | .startUpScanComplete => none
  | .rowProgramComplete _ => none
  | .slotEraseComplete _ => none
  | .controlUpdateComplete _ => none
  | .keyDown _ _ _ => none
  | .keyUp _ _ _ => none
  | .scanch _ _ => none
  | .pause _ => none
  | .resume _ => none
  | .present _ => none
  | .linkByteTimeout _ => none
  | .silenceTimerExpiry _ => none
  | .repeatTimerExpiry _ => none
  | .gapTimerExpiry _ => none
  | .probeTimerExpiry _ => none
  | .startMessage _ => none
  | .messageComplete _ => none
  | .frameForOtherUnit => none
  | .hostLineByte _ _ => none
  | .linkByte _ _ _ _ => none

/-- The key code a key event carries (R73). -/
def Instr.keyCode : Instr → Option Byte
  | .powerOnReset _ _ => none
  | .mark => none
  | .quietTimerExpiry => none
  | .frameAbort => none
  | .frameGapTimeout => none
  | .checkFail _ => none
  | .unknownKind _ _ _ => none
  | .answerSendStart => none
  | .answerAbandoned _ _ => none
  | .answerComplete => none
  | .poll _ _ => none
  | .write _ _ => none
  | .readForm _ _ => none
  | .status _ _ => none
  | .stationSetup _ _ => none
  | .stationRead _ _ => none
  | .classSet _ _ => none
  | .keymapSet _ _ => none
  | .attentionRead _ _ => none
  | .attentionClear _ _ => none
  | .attentionMask _ _ => none
  | .countersRead _ _ => none
  | .broadcastMessage _ _ => none
  | .restart _ _ => none
  | .directoryRead _ _ => none
  | .loadOpen _ _ => none
  | .loadData _ _ => none
  | .loadClose _ _ => none
  | .loadAbandon _ _ => none
  | .eraseSlots _ _ => none
  | .protect _ _ => none
  | .startUpScanComplete => none
  | .rowProgramComplete _ => none
  | .slotEraseComplete _ => none
  | .controlUpdateComplete _ => none
  | .keyDown _ code _ => some code
  | .keyUp _ code _ => some code
  | .scanch _ _ => none
  | .pause _ => none
  | .resume _ => none
  | .present _ => none
  | .linkByteTimeout _ => none
  | .silenceTimerExpiry _ => none
  | .repeatTimerExpiry _ => none
  | .gapTimerExpiry _ => none
  | .probeTimerExpiry _ => none
  | .startMessage _ => none
  | .messageComplete _ => none
  | .frameForOtherUnit => none
  | .hostLineByte _ _ => none
  | .linkByte _ _ _ _ => none

namespace Laws.F

/-- R73, R168: a command is well formed exactly when the payload it carries has at most 2048 bytes and the key code it
carries is 1..127. -/
def Statement (i : Instr) : Prop :=
  i.wellFormed = true ↔
    (∀ p ∈ i.payload, p.length ≤ 2048) ∧ ∀ c ∈ i.keyCode, 1 ≤ c.toNat ∧ c.toNat ≤ 127

/-- A command that carries neither a payload nor a key code. -/
theorem of_plain {i : Instr} (hw : i.wellFormed = true) (hp : i.payload = none) (hk : i.keyCode = none) :
    Statement i := by
  rw [Statement, hw, hp, hk]; simp

/-- A command that carries a payload. -/
theorem of_payload {i : Instr} {p : List Byte} (hw : i.wellFormed = payloadFits p) (hp : i.payload = some p)
    (hk : i.keyCode = none) : Statement i := by
  rw [Statement, hw, hp, hk]; simp [payloadFits]

/-- A command that carries a key code. -/
theorem of_keyCode {i : Instr} {c : Byte} (hw : i.wellFormed = keyCodeOk c) (hp : i.payload = none)
    (hk : i.keyCode = some c) : Statement i := by
  rw [Statement, hw, hp, hk]; simp [keyCodeOk]

theorem powerOnReset (unitStraps : BitVec 5) (rateStraps : BitVec 2) : Statement (.powerOnReset unitStraps rateStraps) :=
  of_plain rfl rfl rfl

theorem mark : Statement (.mark) :=
  of_plain rfl rfl rfl

theorem quietTimerExpiry : Statement (.quietTimerExpiry) :=
  of_plain rfl rfl rfl

theorem frameAbort : Statement (.frameAbort) :=
  of_plain rfl rfl rfl

theorem frameGapTimeout : Statement (.frameGapTimeout) :=
  of_plain rfl rfl rfl

theorem checkFail (station : Byte) : Statement (.checkFail station) :=
  of_plain rfl rfl rfl

theorem unknownKind (station kind : Byte) (payload : List Byte) : Statement (.unknownKind station kind payload) :=
  of_payload rfl rfl rfl

theorem answerSendStart : Statement (.answerSendStart) :=
  of_plain rfl rfl rfl

theorem answerAbandoned (byte : Byte) (badStop : Bool) : Statement (.answerAbandoned byte badStop) :=
  of_plain rfl rfl rfl

theorem answerComplete : Statement (.answerComplete) :=
  of_plain rfl rfl rfl

theorem poll (station : Byte) (payload : List Byte) : Statement (.poll station payload) :=
  of_payload rfl rfl rfl

theorem write (station : Byte) (payload : List Byte) : Statement (.write station payload) :=
  of_payload rfl rfl rfl

theorem readForm (station : Byte) (payload : List Byte) : Statement (.readForm station payload) :=
  of_payload rfl rfl rfl

theorem status (station : Byte) (payload : List Byte) : Statement (.status station payload) :=
  of_payload rfl rfl rfl

theorem stationSetup (station : Byte) (payload : List Byte) : Statement (.stationSetup station payload) :=
  of_payload rfl rfl rfl

theorem stationRead (station : Byte) (payload : List Byte) : Statement (.stationRead station payload) :=
  of_payload rfl rfl rfl

theorem classSet (station : Byte) (payload : List Byte) : Statement (.classSet station payload) :=
  of_payload rfl rfl rfl

theorem keymapSet (station : Byte) (payload : List Byte) : Statement (.keymapSet station payload) :=
  of_payload rfl rfl rfl

theorem attentionRead (station : Byte) (payload : List Byte) : Statement (.attentionRead station payload) :=
  of_payload rfl rfl rfl

theorem attentionClear (station : Byte) (payload : List Byte) : Statement (.attentionClear station payload) :=
  of_payload rfl rfl rfl

theorem attentionMask (station : Byte) (payload : List Byte) : Statement (.attentionMask station payload) :=
  of_payload rfl rfl rfl

theorem countersRead (station : Byte) (payload : List Byte) : Statement (.countersRead station payload) :=
  of_payload rfl rfl rfl

theorem broadcastMessage (station : Byte) (payload : List Byte) : Statement (.broadcastMessage station payload) :=
  of_payload rfl rfl rfl

theorem restart (station : Byte) (payload : List Byte) : Statement (.restart station payload) :=
  of_payload rfl rfl rfl

theorem directoryRead (station : Byte) (payload : List Byte) : Statement (.directoryRead station payload) :=
  of_payload rfl rfl rfl

theorem loadOpen (station : Byte) (payload : List Byte) : Statement (.loadOpen station payload) :=
  of_payload rfl rfl rfl

theorem loadData (station : Byte) (payload : List Byte) : Statement (.loadData station payload) :=
  of_payload rfl rfl rfl

theorem loadClose (station : Byte) (payload : List Byte) : Statement (.loadClose station payload) :=
  of_payload rfl rfl rfl

theorem loadAbandon (station : Byte) (payload : List Byte) : Statement (.loadAbandon station payload) :=
  of_payload rfl rfl rfl

theorem eraseSlots (station : Byte) (payload : List Byte) : Statement (.eraseSlots station payload) :=
  of_payload rfl rfl rfl

theorem protect (station : Byte) (payload : List Byte) : Statement (.protect station payload) :=
  of_payload rfl rfl rfl

theorem startUpScanComplete : Statement (.startUpScanComplete) :=
  of_plain rfl rfl rfl

theorem rowProgramComplete (success : Bool) : Statement (.rowProgramComplete success) :=
  of_plain rfl rfl rfl

theorem slotEraseComplete (success : Bool) : Statement (.slotEraseComplete success) :=
  of_plain rfl rfl rfl

theorem controlUpdateComplete (success : Bool) : Statement (.controlUpdateComplete success) :=
  of_plain rfl rfl rfl

theorem keyDown (station : StationIx) (code : Byte) (time : Nat) : Statement (.keyDown station code time) :=
  of_keyCode rfl rfl rfl

theorem keyUp (station : StationIx) (code : Byte) (time : Nat) : Statement (.keyUp station code time) :=
  of_keyCode rfl rfl rfl

theorem scanch (station : StationIx) (char : Byte) : Statement (.scanch station char) :=
  of_plain rfl rfl rfl

theorem pause (station : StationIx) : Statement (.pause station) :=
  of_plain rfl rfl rfl

theorem resume (station : StationIx) : Statement (.resume station) :=
  of_plain rfl rfl rfl

theorem present (station : StationIx) : Statement (.present station) :=
  of_plain rfl rfl rfl

theorem linkByteTimeout (station : StationIx) : Statement (.linkByteTimeout station) :=
  of_plain rfl rfl rfl

theorem silenceTimerExpiry (station : StationIx) : Statement (.silenceTimerExpiry station) :=
  of_plain rfl rfl rfl

theorem repeatTimerExpiry (station : StationIx) : Statement (.repeatTimerExpiry station) :=
  of_plain rfl rfl rfl

theorem gapTimerExpiry (station : StationIx) : Statement (.gapTimerExpiry station) :=
  of_plain rfl rfl rfl

theorem probeTimerExpiry (station : StationIx) : Statement (.probeTimerExpiry station) :=
  of_plain rfl rfl rfl

theorem startMessage (station : StationIx) : Statement (.startMessage station) :=
  of_plain rfl rfl rfl

theorem messageComplete (station : StationIx) : Statement (.messageComplete station) :=
  of_plain rfl rfl rfl

theorem frameForOtherUnit : Statement (.frameForOtherUnit) :=
  of_plain rfl rfl rfl

theorem hostLineByte (byte : Byte) (badStop : Bool) : Statement (.hostLineByte byte badStop) :=
  of_plain rfl rfl rfl

theorem linkByte (station : StationIx) (byte : Byte) (parityOk : Bool) (time : Nat) :
    Statement (.linkByte station byte parityOk time) :=
  of_plain rfl rfl rfl

end Laws.F

end Sys2Proof
end

