-- ==== Sys2Proof/Laws/Releases.lean ====
section
/-! SUPPORT. The release queue: what serving the room-wait list and removing a record do, said once. -/

namespace Sys2Proof.Machine

/-- R130: queueing a record changes the queue and one station's input state only. -/
theorem State.enqueue_frame (s : State) (e : RoomEntry) :
    s.enqueue e =
      { s.setStation e.station ((s.station e.station).setInput .released) with
          rq := s.rq.append ((s.station e.station).sheet.compose e) } := rfl

@[simp] theorem State.enqueue_rq (s : State) (e : RoomEntry) :
    (s.enqueue e).rq = s.rq.append ((s.station e.station).sheet.compose e) := rfl

theorem State.station_enqueue (s : State) (e : RoomEntry) (n : StationIx) :
    (s.enqueue e).station n = if n = e.station then (s.station n).setInput .released else s.station n := by
  rw [State.enqueue_frame]
  have : ∀ (t : State) q, ({ t with rq := q } : State).station n = t.station n := fun _ _ => rfl
  rw [this, State.station_setStation]
  split
  · rename_i h; rw [h]
  · rfl

/-- R135: serving a list whose stations are distinct and whose sizes are right moves a first part of it to the queue, in
order, and stops at the first entry that does not fit; the stations moved are RELEASED, and nothing else changes. -/
theorem State.serveList_spec (rooms : List RoomEntry) (s : State)
    (hd : rooms.Pairwise fun e d => e.station ≠ d.station)
    (hs : ∀ e ∈ rooms, e.size = recordSize ((s.station e.station).sheet.releaseEntries e.full)) :
    ∃ moved, rooms = moved ++ (State.serveList rooms s).rq.rooms ∧
      (State.serveList rooms s).rq.queue =
        s.rq.queue ++ moved.map (fun e => (s.station e.station).sheet.compose e) ∧
      (State.serveList rooms s).rq.staging = s.rq.staging + (moved.map RoomEntry.size).sum ∧
      (∀ e ∈ (State.serveList rooms s).rq.rooms.head?, (State.serveList rooms s).rq.fits e.size = false) ∧
      (∀ e ∈ moved, (State.serveList rooms s).station e.station = (s.station e.station).setInput .released) ∧
      (∀ n, (∀ e ∈ moved, e.station ≠ n) → (State.serveList rooms s).station n = s.station n) ∧
      State.serveList rooms s =
        { s with stations := (State.serveList rooms s).stations, rq := (State.serveList rooms s).rq } := by
  induction rooms generalizing s with
  | nil => exact ⟨[], rfl, by simp [State.serveList], by simp [State.serveList], by simp [State.serveList], by simp,
      fun _ _ => rfl, rfl⟩
  | cons e es ih =>
    obtain ⟨h1, h2⟩ := List.pairwise_cons.mp hd
    unfold State.serveList
    split
    · have hsame : ∀ d ∈ es, (s.enqueue e).station d.station = s.station d.station := by
        intro d hm
        rw [State.station_enqueue, if_neg (h1 d hm).symm]
      obtain ⟨moved, a, b, c, d, f, g, k⟩ := ih (s.enqueue e) h2 fun d hm => by
        rw [hsame d hm]; exact hs d (by simp [hm])
      have hm : ∀ d ∈ moved, d ∈ es := fun d hm => by rw [a]; simp [hm]
      refine ⟨e :: moved, ?_, ?_, ?_, d, ?_, ?_, ?_⟩
      · rw [List.cons_append, ← a]
      · rw [b, State.enqueue_rq]
        simp only [ReleaseQueue.append, List.append_assoc, List.cons_append, List.nil_append, List.map_cons]
        congr 2
        apply List.map_congr_left
        intro d hd'
        rw [hsame d (hm d hd')]
      · rw [c, State.enqueue_rq]
        have : e.size = recordSize ((s.station e.station).sheet.releaseEntries e.full) := hs e (by simp)
        simp only [ReleaseQueue.append, Sheet.compose, List.map_cons, List.sum_cons, this]
        omega
      · intro d hd'
        rcases List.mem_cons.mp hd' with rfl | hd'
        · rw [g _ fun x hx => (h1 x (hm x hx)).symm, State.station_enqueue, if_pos rfl]
        · rw [f d hd', hsame d (hm d hd')]
      · intro n hn
        rw [g n fun x hx => hn x (by simp [hx]), State.station_enqueue, if_neg fun h => hn e (by simp) h.symm]
      · rw [k]; rfl
    · rename_i hf
      refine ⟨[], rfl, by simp, by simp, ?_, by simp, fun _ _ => rfl, rfl⟩
      intro d hd'
      simp at hd'
      subst hd'
      have : ({ s.rq with rooms := e :: es } : ReleaseQueue).fits e.size = s.rq.fits e.size := rfl
      simp only [this]
      simpa using hf

/-- R138: removing a station's record takes its size from the staging count. -/
theorem ReleaseQueue.remove_spec {q : ReleaseQueue} (n : StationIx) (h : q.StagingSound) :
    (q.remove n).staging = ((q.queue.filter fun r => r.station != n).map Record.size).sum := by
  have split : ∀ l : List Record, (l.map Record.size).sum =
      ((l.filter fun r => r.station == n).map Record.size).sum +
        ((l.filter fun r => r.station != n).map Record.size).sum := by
    intro l
    induction l with
    | nil => rfl
    | cons r l ih =>
      by_cases hr : r.station = n <;> simp [hr, bne] at ih ⊢ <;> omega
  have := split q.queue
  simp only [ReleaseQueue.remove, h.1]
  omega

end Sys2Proof.Machine
end

