-- ==== Sys2Proof/Laws/Store.lean ====
section
/-! SUPPORT. The template store: what its shared operations do to the slot table, the session and the directory. -/

namespace Sys2Proof.Machine

/-- What the slot table reads as after slots are set. -/
@[simp] theorem Store.setSlots_get (st : Store) (p : Nat → Bool) (v : SlotState) (k : Fin 64) :
    (st.setSlots p v).slots[k] = if p k.1 then v else st.slots[k] := by
  simp [Store.setSlots]

/-- R155: what a session's end does: its begun slots DIRTY, its others ERASED, no session, nothing waiting. -/
theorem Store.endSession_slots (st : Store) (ss : Session) (k : Fin 64) :
    (st.endSession ss).slots[k] =
      if ss.holds k.1 = true then (if k.1 ∈ ss.begun then .dirty else .erased) else st.slots[k] := by
  have h : (st.endSession ss).slots =
      ((st.setSlots ss.holds .erased).setSlots (fun k => ss.holds k && ss.begun.contains k) .dirty).slots := by
    simp only [Store.endSession]
  rw [h, Store.setSlots_get, Store.setSlots_get]
  cases ss.holds k.1 <;> simp

/-- R155: a session's end leaves the memory, the flags, the phase, the directory and the operation alone. -/
theorem Store.endSession_frame (st : Store) (ss : Session) :
    st.endSession ss = { st with slots := (st.endSession ss).slots, session := none, rowsWaiting := [] } := by
  simp only [Store.endSession, Store.setSlots]

/-- R158: a row program that begins joins its slot to the begun slots. -/
theorem Store.beginRow_frame (st : Store) (job : RowJob) (rest : List RowJob) :
    st.beginRow job rest =
      { st with op := some (.rowProgram job), rowsWaiting := rest, session := (st.beginRow job rest).session } := rfl

/-- R146: what the directory holds after an entry joins it. -/
@[simp] theorem mem_insertEntry (d e : DirEntry) (l : List DirEntry) : d ∈ insertEntry e l ↔ d = e ∨ d ∈ l := by
  induction l with
  | nil => simp [insertEntry]
  | cons x l ih =>
    unfold insertEntry
    split <;> simp [ih]
    tauto

/-- The slots of a range. -/
@[simp] theorem mem_slotRange (first count k : Nat) : k ∈ slotRange first count ↔ first ≤ k ∧ k < first + count := by
  simp only [slotRange, List.mem_map, List.mem_range]
  constructor
  · rintro ⟨i, hi, rfl⟩; omega
  · rintro ⟨h1, h2⟩; exact ⟨k - first, by omega, by omega⟩

/-- R162: the slots of a range are in ascending order. -/
theorem slotRange_ascending (first count : Nat) : (slotRange first count).Pairwise (· < ·) := by
  unfold slotRange
  rw [List.pairwise_map]
  exact List.pairwise_lt_range.imp fun h => by omega

/-- R152: what a failed row program leaves has the length of a row. -/
theorem length_failedRow (job : RowJob) (free : List Byte) (hf : free.length = 64) (hj : job.bytes.length = 64) :
    (failedRow job free).length = 64 := by
  have he : (if job.row = 0 then free.set 63 0xFF#8 else free).length = 64 := by split <;> simp [hf]
  unfold failedRow
  generalize (if job.row = 0 then free.set 63 0xFF#8 else free) = row at he
  dsimp only
  split
  · simp [hj]
  · exact he

/-- R152: what an interrupted row program leaves has the length of a row. -/
theorem length_interruptedRow (job : RowJob) (free : List Byte) (hf : free.length = 64)
    (hj : job.bytes.length = 64) : (interruptedRow job free).length = 64 := by
  unfold interruptedRow
  split
  · simp [hj]; omega
  · split
    · exact hj
    · exact hf

/-- R144, R152: an interrupted header row carries no mark. -/
theorem interruptedRow_unmarked (job : RowJob) (free : List Byte) (hr : job.row = 0) (hj : job.bytes.length = 64) :
    (interruptedRow job free).getD 63 0x00#8 = 0xFF#8 := by
  have h63 : (1 + (free.headD 0x00#8).toNat % 63) ≤ 63 := by omega
  simp only [interruptedRow, if_pos hr]
  rw [List.getD_append_right _ _ _ _ (by simp; omega)]
  simp [hj]
  rw [List.getElem?_replicate]
  split
  · rfl
  · omega

/-- R163: what a failed or an interrupted slot erase leaves has the length of a slot. -/
theorem length_interruptedSlot (free : List Byte) : (interruptedSlot free).length = free.length := by
  unfold interruptedSlot; split <;> simp

theorem length_failedSlot (free : List Byte) : (failedSlot free).length = free.length := by
  simp only [failedSlot]; split <;> simp [length_interruptedSlot]

@[simp] theorem State.takeFree_length (s : State) (k : Nat) : (s.takeFree k).1.length = k := by simp [State.takeFree]

end Sys2Proof.Machine
end

