-- ==== Sys2Proof/Tests/Slice0.lean ====
section
/-! SUPPORT. Our own tests. First the commands that are refused as ill formed; then small checks of the model against
figures the manual works out; then, for every statement with hypotheses, states and operands that meet them. -/

namespace Sys2Proof.Tests

-- One after another: hundreds of small kernel evaluations at once would want a thread each.
set_option Elab.async false

open Sys2Proof.Machine

/-! ### Ill-formed commands, each refused by its check (R73, R168, R193) -/

theorem test_ill_payload_unknownKind : (Instr.unknownKind 0x00#8 0x04#8 (List.replicate 2049 0x00#8)).wellFormed = false := by decide +kernel
theorem test_ill_payload_write : (Instr.write 0x01#8 (List.replicate 2049 0x00#8)).wellFormed = false := by decide +kernel
theorem test_ill_keyDown_zero : (Instr.keyDown 0 0x00#8 0).wellFormed = false := by decide
theorem test_ill_keyDown_high : (Instr.keyDown 0 0x80#8 0).wellFormed = false := by decide
theorem test_ill_keyUp_zero : (Instr.keyUp 0 0x00#8 0).wellFormed = false := by decide
theorem test_well_formed_bounds : (Instr.keyDown 0 0x01#8 0).wellFormed = true ∧
    (Instr.keyUp 11 0x7F#8 0).wellFormed = true ∧
    (Instr.poll 0x00#8 (List.replicate 2048 0x00#8)).wellFormed = true := by decide +kernel

/-- The table gives no row any bits: no word spells a command, and a fetched word leaves the state alone. -/
theorem test_no_word_spells_a_command : ∀ nbits w, decodeTableWord nbits w = none ∧
    State.reset.withFetchWord nbits w = State.reset := fun _ _ => ⟨rfl, rfl⟩

/-! ### Small states -/

/-- The 2412 RUNNING, idle, the line quiet, nothing loaded, with classes 3 and 4 of section 11.6. -/
def running : State :=
  { State.reset with
      quietLeft := 0
      classes := ((Vector.replicate 15 ClassRec.zero).set 2
        { ClassRec.zero with chars := .digits, rule := .range, low := 1, high := 500 }).set 3
        { ClassRec.zero with chars := .digits, rule := .mod10 }
      store := { State.reset.store with phase := .running, op := none, slots := Vector.replicate 64 .erased } }

def props (justify : Justify) (advance : Bool) (cls : Fin 16) (fill : FillRule) : FieldProps :=
  { access := .input, presented := .normal, justify := justify, advance := advance, alwaysSend := false, cls := cls,
    fill := fill }

/-- The fields of the form of section 11.6. -/
def field10 : Field := ⟨10, 170, 6, props .left false 0 .entry, false⟩
def field11 : Field := ⟨11, 250, 8, props .rightZero false 4 .full, false⟩
def field12 : Field := ⟨12, 260, 4, props .rightBlank true 3 .none, false⟩

/-- The form's sheet before anything is keyed. -/
def formSheet : Sheet := { Sheet.blank 24 2 with fields := [field10, field11, field12], cursor := 170 }

/-- An ATTACHED station with the form, in an input state. -/
def clerk (input : InputState) : Station :=
  { Station.atReset with
      link := .attached, input := input, sheet := formSheet, profile := { Profile.atReset with enable := true }
      dr := { Refresh.atReset with silence := some 2000, probe := some 500 } }

/-- Station 3 of the desk as given. -/
def desk (st : Station) : State := running.setStation 2 st

/-- The state an outcome leaves; the reset state where there is none. -/
def after : Host.Outcome State Fault Refusal → State
  | .next t => t
  | _ => State.reset

/-- The answer in flight after an outcome, as its kind and payload. -/
def answered (o : Host.Outcome State Fault Refusal) : Option (UpKind × List Byte) :=
  (after o).answer.map fun a => (a.kind, a.payload)

/-- Station 3 after a command. -/
def three (o : Host.Outcome State Fault Refusal) : Station := (after o).station 2

/-! ### Figures of the manual -/

/-- R170 gives the CRC of "123456789" as 0x29B1. -/
theorem test_crc_of_digits :
    crc [0x31#8, 0x32#8, 0x33#8, 0x34#8, 0x35#8, 0x36#8, 0x37#8, 0x38#8, 0x39#8] = 0x29B1#16 := by decide +kernel

/-- Section 11.6: the check value of 7351353 is 7, so 73513537 passes and 73513538 fails with error 04. -/
theorem test_mod10_of_worked_sequence :
    mod10Check [0x37#8, 0x33#8, 0x35#8, 0x31#8, 0x33#8, 0x35#8, 0x33#8, 0x37#8] = none ∧
    mod10Check [0x37#8, 0x33#8, 0x35#8, 0x31#8, 0x33#8, 0x35#8, 0x33#8, 0x38#8] = some .checkDigit := by decide

/-- The image of section 11.6: 60 bytes. -/
def image : List Byte :=
  [0x05#8, 24#8, 2#8, 10#8, 3#8, 0#8, 2#8, 0#8, 0#8, 0#8, 0#8, 0#8, 0#8, 60#8, 0#8, 0#8] ++
  [10#8, 0#8, 170#8, 6#8, 0x01#8, 0#8, 2#8, 0#8] ++ [11#8, 0#8, 250#8, 8#8, 0x11#8, 4#8, 1#8, 0#8] ++
  [12#8, 1#8, 4#8, 4#8, 0x29#8, 3#8, 0#8, 0#8] ++
  [0#8, 80#8, 10#8, 0x4F#8, 0x52#8, 0x44#8, 0x45#8, 0x52#8, 0x20#8, 0x44#8, 0x45#8, 0x53#8, 0x4B#8] ++
  [0#8, 240#8, 4#8, 0x49#8, 0x54#8, 0x45#8, 0x4D#8]

/-- Section 11.6: the image is 60 bytes and validates, and builds the form with the cursor on 170. -/
theorem test_worked_image_is_valid : image.length = 60 ∧ imageFault image 0x05#8 60 1 = none := by decide +kernel
theorem test_worked_image_builds_form : (templateSheet image).fields = formSheet.fields ∧
    (templateSheet image).cursor = 170 ∧ (templateSheet image).top = 2 ∧
    (templateSheet image).cell 81 = 0x52#8 ∧ (templateSheet image).cell 243 = 0x4D#8 := by decide +kernel
/-- R154 check 1, and check 12 on the last run. -/
theorem test_image_checks : imageFault image 0x05#8 60 0 = some (.length, 0) ∧
    imageFault (image.set 59 0x07#8) 0x05#8 60 1 = some (.character, 59) := by decide +kernel

/-- Section 11.6, taking the order: the form with SMITH, 73513537 and a 3 that has been justified. -/
def orderSheet : Sheet :=
  ((formSheet.putCells 170 [0x53#8, 0x4D#8, 0x49#8, 0x54#8, 0x48#8]).putCells 250
    [0x37#8, 0x33#8, 0x35#8, 0x31#8, 0x33#8, 0x35#8, 0x33#8, 0x37#8]).putCells 260 [0x33#8]
def order : Station :=
  { clerk .entry with
      sheet := { orderSheet with
        cursor := 261, edited := some 12
        fields := [{ field10 with touched := true }, { field11 with touched := true }, { field12 with touched := true }] } }

/-- Section 11.6: the release key queues a record of 29 bytes with code 01, cursor 261 and view top 2, with field 12
justified to "   3". -/
theorem test_worked_release : (after (exec (.keyDown 2 0x0D#8 0) (desk order))).rq =
    ⟨29, [{ station := 2, code := 0x01#8, priority := .normal, cursor := 261, top := 2
            entries := [⟨10, [0x53#8, 0x4D#8, 0x49#8, 0x54#8, 0x48#8]⟩,
              ⟨11, [0x37#8, 0x33#8, 0x35#8, 0x31#8, 0x33#8, 0x35#8, 0x33#8, 0x37#8]⟩,
              ⟨12, [0x20#8, 0x20#8, 0x20#8, 0x33#8]⟩], size := 29 }], []⟩ := by decide

/-- Section 11.6: with 8180 bytes staged the 29 bytes do not fit, and the station waits for room. -/
theorem test_worked_room_wait :
    (three (exec (.keyDown 2 0x0D#8 0) { desk order with rq := ⟨8180, [], []⟩ })).input = .roomWait ∧
    (after (exec (.keyDown 2 0x0D#8 0) { desk order with rq := ⟨8180, [], []⟩ })).rq.rooms.map RoomEntry.size = [29] := by
  decide

/-- Section 11.6: the scan of 73513538 into field 11 is placed, and the station is held on error 04 with the cursor at
250 and its type-ahead queue empty. -/
def scanning : Station :=
  { clerk .entry with
      sheet := { formSheet with cursor := 250 }, typeAhead := [.char 0x32#8]
      scan := some ⟨[0x37#8, 0x33#8, 0x35#8, 0x31#8, 0x33#8, 0x35#8, 0x33#8, 0x38#8], false, 50⟩ }
theorem test_worked_scan_held : (three (exec (.scanch 2 0x0D#8) (desk scanning))).input = .held ∧
    (three (exec (.scanch 2 0x0D#8) (desk scanning))).error = some .checkDigit ∧
    (three (exec (.scanch 2 0x0D#8) (desk scanning))).sheet.cursor = 250 ∧
    (three (exec (.scanch 2 0x0D#8) (desk scanning))).typeAhead = [] := by decide

/-- Section 11.6: the scan of 73513537 passes and advances to field 12; the 3 keyed during it is replayed there. -/
def scanningGood : Station :=
  { scanning with
      typeAhead := [.char 0x33#8]
      scan := some ⟨[0x37#8, 0x33#8, 0x35#8, 0x31#8, 0x33#8, 0x35#8, 0x33#8, 0x37#8], false, 50⟩ }
theorem test_worked_scan_placed : (three (exec (.gapTimerExpiry 2) (desk scanningGood))).input = .entry ∧
    (three (exec (.gapTimerExpiry 2) (desk scanningGood))).sheet.cursor = 261 ∧
    (three (exec (.gapTimerExpiry 2) (desk scanningGood))).sheet.edited = some 12 ∧
    (three (exec (.gapTimerExpiry 2) (desk scanningGood))).sheet.content field12 =
      [0x33#8, 0x20#8, 0x20#8, 0x20#8] := by decide

/-! ### One small test or two for each command, the expected values from the rule named -/

/-- R179: strap value 0 is taken as 1; R148: the start-up scan begins. -/
theorem test_powerOnReset : (after (exec (.powerOnReset 0 2) running)).unitAddr = 0x01#8 ∧
    (after (exec (.powerOnReset 31 2) running)).unitAddr = 0x1F#8 ∧
    (after (exec (.powerOnReset 7 2) running)).store.op = some .startUpScan := by decide +kernel
/-- R167. -/
theorem test_mark : (after (exec .mark running)).receiver = .inFrame [] 20 ∧
    (after (exec .mark { running with quietLeft := 1 })).receiver = .hunting := by decide +kernel
theorem test_quietTimerExpiry : (after (exec .quietTimerExpiry State.reset)).quietLeft = 0 := by decide +kernel
/-- R168, R169: an aborted frame is counted. -/
theorem test_frameAbort : (after (exec .frameAbort { running with receiver := .inFrame [0x01#8] 5 })).framingErrors = 1 := by
  decide +kernel
theorem test_frameGapTimeout :
    (after (exec .frameGapTimeout { running with receiver := .inFrame [0x01#8] 5 })).framingErrors = 1 ∧
    (after (exec .frameGapTimeout running)).framingErrors = 0 := by decide +kernel
/-- R169: a 0xC3 that comes right after the 20 ms starts a new frame. -/
theorem test_mark_after_gap_timeout :
    (after (runAll [.frameGapTimeout, .mark] { running with receiver := .inFrame [0x01#8] 5, quietLeft := 2 })).receiver =
      .inFrame [] 20 := by decide +kernel
/-- R170. -/
theorem test_checkFail : answered (exec (.checkFail 0x63#8) running) = some (.checkFail, []) ∧
    (after (exec (.checkFail 0x63#8) running)).checkFails = 1 := by decide +kernel
/-- R174: UNKNOWN KIND with the code as detail; while STARTING the refusal is STARTING. -/
theorem test_unknownKind :
    answered (exec (.unknownKind 0x00#8 0x17#8 []) running) = some (.refuse, [0x01#8, 0x00#8, 0x00#8, 0x17#8]) ∧
    answered (exec (.unknownKind 0x00#8 0x17#8 []) State.reset) = some (.refuse, [0x04#8, 0x00#8, 0x00#8, 0x00#8]) := by
  decide +kernel
/-- R171 to R173. -/
def waitingAnswer : State := after (exec (.poll 0x00#8 []) running)
theorem test_answerSendStart : (after (exec .answerSendStart waitingAnswer)).hostDriverEnabled = true := by decide +kernel
theorem test_answerAbandoned : (after (exec (.answerAbandoned 0x55#8 false) waitingAnswer)).answer = none := by
  decide +kernel
/-- R172, section 11.1: an answer begins with 0x3C; read back while it is sent it loses nothing, and any other byte, or
the same one with a bad stop bit, loses the answer. -/
theorem test_hostLineByte_read_back :
    ((after (runAll [.answerSendStart, .hostLineByte 0x3C#8 false] waitingAnswer)).answer.map Answer.readBack = some 1) ∧
    (after (runAll [.answerSendStart, .hostLineByte 0x3D#8 false] waitingAnswer)).answer = none ∧
    (after (runAll [.answerSendStart, .hostLineByte 0x3C#8 true] waitingAnswer)).answer = none := by decide +kernel
theorem test_answerComplete : (after (exec .answerComplete (after (exec .answerSendStart waitingAnswer)))).answer = none ∧
    (after (exec .answerComplete waitingAnswer)).answer.isSome = true := by decide +kernel
/-- R137: NOTHING on an empty queue. -/
theorem test_poll : answered (exec (.poll 0x03#8 []) running) = some (.nothing, []) := by decide +kernel
/-- R70: the link state, the input state UNLOCK made, and the counts; R58, R1: a FILL past the end is cut off. -/
theorem test_write_unlock : answered (exec (.write 0x03#8 [0x01#8]) (desk (clerk .locked))) =
    some (.accept, [0x02#8, 0x01#8, 0x00#8, 0x00#8, 0x00#8, 0x00#8]) := by decide +kernel
theorem test_write_truncates :
    answered (exec (.write 0x03#8 [0x00#8, 0x03#8, 0x07#8, 0x7F#8, 0x06#8, 0x03#8, 0x41#8, 0x07#8, 0x43#8]) (desk (clerk .locked))) =
      some (.accept, [0x02#8, 0x00#8, 0x00#8, 0x02#8, 0x00#8, 0x00#8]) := by decide +kernel
/-- R141: one touched field, from address 0. -/
theorem test_readForm :
    answered (exec (.readForm 0x03#8 [0x00#8, 0x00#8, 0x01#8]) (desk (clerk .entry))) =
      some (.formData, [0xFF#8, 0xFF#8, 0x00#8, 0xAA#8, 0x02#8, 0x03#8, 0x01#8,
        0x0A#8, 0x00#8, 0x0B#8, 0x00#8, 0x0C#8, 0x00#8]) := by decide +kernel
/-- R181: 64 ERASED slots, unit 1, revision 1. -/
theorem test_status : answered (exec (.status 0x00#8 []) running) =
    some (.info, [0x01#8, 0x00#8, 0x00#8, 0x00#8, 0x00#8, 0x00#8, 0x00#8, 0x00#8, 0x00#8, 0x40#8, 0x00#8, 0x01#8, 0x01#8]) := by
  decide +kernel
/-- R32, R183: a repeat delay of 100 is clamped to 150; an enabled station is DETACHED. -/
theorem test_stationSetup :
    (three (exec (.stationSetup 0x00#8 [3#8, 1#8, 0#8, 0#8, 100#8, 0#8, 50#8, 0#8, 0x0D#8, 50#8, 1#8, 0#8]) running)).link =
      .detached ∧
    (three (exec (.stationSetup 0x00#8 [3#8, 1#8, 0#8, 0#8, 100#8, 0#8, 50#8, 0#8, 0x0D#8, 50#8, 1#8, 0#8]) running)).profile.repeatDelay =
      150 := by decide +kernel
/-- R182: 32 bytes of a station at reset; R32's values are the first eleven. -/
theorem test_stationRead : answered (exec (.stationRead 0x00#8 [0x03#8]) running) =
    some (.info, [0#8, 0#8, 0x01#8, 0xF4#8, 0#8, 100#8, 0#8, 0x0D#8, 50#8, 1#8, 0#8, 0#8, 0#8, 0#8, 0#8, 0#8, 0#8, 24#8, 0#8, 0#8,
      0#8, 0#8, 0#8, 0#8, 0#8, 0#8, 0#8, 0#8, 0#8, 0#8, 0#8, 0#8]) := by decide +kernel
/-- R184, section 11.2: bit 7 of map byte 0 is blank, bit 6 is code 0x21. -/
theorem test_classSet :
    ((after (exec (.classSet 0x00#8 ([1#8, 4#8, 0#8, 2#8, 0#8, 0#8, 0#8, 1#8, 0#8, 0#8, 1#8, 0xF4#8] ++
        0x40#8 :: List.replicate 11 0x00#8)) running)).classes[0]).mapPermits 0x21#8 = true ∧
    ((after (exec (.classSet 0x00#8 ([1#8, 4#8, 0#8, 2#8, 0#8, 0#8, 0#8, 1#8, 0#8, 0#8, 1#8, 0xF4#8] ++
        0x40#8 :: List.replicate 11 0x00#8)) running)).classes[0]).high = 500 := by decide +kernel
/-- R185: the entry of map 2, plane 1, key 5. -/
theorem test_keymapSet :
    (after (exec (.keymapSet 0x00#8 [2#8, 1#8, 5#8, 1#8, 0x01#8, 0x41#8]) running)).mapEntry 2 1 5 = (0x01#8, 0x41#8) ∧
    (after (exec (.keymapSet 0x00#8 [2#8, 1#8, 5#8, 1#8, 0x01#8, 0x41#8]) running)).mapEntry 2 1 6 = (0x02#8, 0x00#8) := by
  decide +kernel
/-- R186, R187, R188. -/
theorem test_attentionRead : answered (exec (.attentionRead 0x00#8 []) running) =
    some (.info, List.replicate 13 0x00#8 ++ [0x0F#8, 0x07#8]) := by decide +kernel
theorem test_attentionClear :
    (after (exec (.attentionClear 0x00#8 [0x00#8, 0x01#8]) { running with causes := running.causes.set 0 0x03#8 })).causes[0] =
      0x02#8 := by decide +kernel
theorem test_attentionMask : (after (exec (.attentionMask 0x00#8 [0xF1#8, 0xFF#8]) running)).stationMask = 0x01#8 ∧
    (after (exec (.attentionMask 0x00#8 [0xF1#8, 0xFF#8]) running)).ctlMask = 0x07#8 := by decide +kernel
/-- R189: 54 bytes. -/
theorem test_countersRead : (answered (exec (.countersRead 0x00#8 []) running)).map (fun a => a.2.length) = some 54 := by
  decide +kernel
/-- R190: one station reached, one byte substituted. -/
theorem test_broadcastMessage : answered (exec (.broadcastMessage 0x00#8 [0x41#8, 0x0A#8]) (desk (clerk .entry))) =
    some (.accept, [0x01#8, 0x01#8]) := by decide +kernel
/-- R173, R179: the restart comes with the completion of its ACCEPT. -/
theorem test_restart : (after (exec (.restart 0x00#8 []) running)).store.phase = .running ∧
    (after (exec .answerComplete (after (exec .answerSendStart (after (exec (.restart 0x00#8 []) running)))))).store.phase =
      .starting := by decide +kernel
/-- R191: no entries, 64 ERASED slots, no flags. -/
theorem test_directoryRead : answered (exec (.directoryRead 0x00#8 []) running) =
    some (.info, 0x00#8 :: List.replicate 64 0x01#8 ++ [0x00#8, 0x00#8]) := by decide +kernel

/-- Section 11.6: form 5 is opened at slot 40, its image row programmed, and the session closed. -/
def opened : State := after (exec (.loadOpen 0x00#8 [5#8, 40#8, 1#8]) running)
def loading : State :=
  after (exec (.loadData 0x00#8 (0x00#8 :: image ++ [0xFF#8, 0xFF#8, 0xFF#8, 0xFF#8])) opened)
def loaded : State := after (exec (.rowProgramComplete true) loading)
def closing : State := after (exec (.loadClose 0x00#8 [0x00#8, 60#8]) loaded)
def listed : State := after (exec (.rowProgramComplete true) closing)
theorem test_loadOpen : answered (exec (.loadOpen 0x00#8 [5#8, 40#8, 1#8]) running) = some (.accept, [31#8]) ∧
    opened.store.slots[40] = .loading := by decide +kernel
theorem test_loadData : loading.store.rowNow.map (fun j => (j.slot, j.row)) = some (40, 1) ∧
    loading.store.session.map Session.expected = some 0 := by decide +kernel
theorem test_rowProgramComplete_data : loaded.store.session.map Session.expected = some 1 ∧ loaded.causes[0] = 0x01#8 := by
  decide +kernel
theorem test_loadClose : closing.store.rowNow.map (fun j => (j.slot, j.row, j.bytes.getD 4 0x00#8)) = some (40, 0, 60#8) := by
  decide +kernel
theorem test_rowProgramComplete_header : listed.store.directory = [⟨0x05#8, 40, 1, 60⟩] ∧ listed.store.session = none ∧
    listed.store.slots[40] = .head := by decide +kernel
theorem test_loadAbandon : (after (exec (.loadAbandon 0x00#8 []) loaded)).store.slots[40] = .dirty ∧
    (after (exec (.loadAbandon 0x00#8 []) opened)).store.slots[40] = .erased := by decide +kernel
/-- R162: a HEAD slot is erased and its template leaves the directory; R163. -/
def erasing : State := after (exec (.eraseSlots 0x00#8 [40#8, 40#8]) listed)
theorem test_eraseSlots : answered (exec (.eraseSlots 0x00#8 [40#8, 40#8]) listed) = some (.accept, [1#8, 0#8]) ∧
    erasing.store.directory = [] := by decide +kernel
theorem test_slotEraseComplete : (after (exec (.slotEraseComplete true) erasing)).store.slots[40] = .erased ∧
    (after (exec (.slotEraseComplete true) erasing)).store.mem = [] := by decide +kernel
/-- R164. -/
theorem test_protect :
    (after (exec (.controlUpdateComplete true) (after (exec (.protect 0x00#8 [0x0F#8, 0x01#8]) running)))).store.protect[15] =
      true := by decide +kernel
theorem test_controlUpdateComplete :
    (after (exec (.controlUpdateComplete false) (after (exec (.protect 0x00#8 [0x0F#8, 0x01#8]) running)))).causes[0] =
      0x02#8 := by decide +kernel
/-- R149: the scan of the listed store finds form 5 again; the shipped store is all ERASED. -/
theorem test_startUpScanComplete :
    (after (exec .startUpScanComplete (after (exec (.powerOnReset 7 0) listed)))).store.directory = [⟨0x05#8, 40, 1, 60⟩] ∧
    (after (exec .startUpScanComplete State.reset)).store.countSlots .erased = 64 := by decide +kernel
/-- R99, R100: a character is stored and the cursor moves right; R98: outside an INPUT field, error 01. -/
theorem test_keyDown : (three (exec (.keyDown 2 0x53#8 0) (desk (clerk .entry)))).sheet.cell 170 = 0x53#8 ∧
    (three (exec (.keyDown 2 0x53#8 0) (desk (clerk .entry)))).sheet.cursor = 171 ∧
    (three (exec (.keyDown 2 0x53#8 0) (desk { clerk .entry with sheet := { formSheet with cursor := 100 } }))).error =
      some .fixedCell := by decide +kernel
/-- R74: a key-up is remembered. -/
theorem test_keyUp : (three (exec (.keyUp 2 0x53#8 7) (desk (clerk .entry)))).chatter.keyUp = some (0x53#8, 7) := by
  decide +kernel
/-- R115: a scan opens in ENTRY only. -/
theorem test_scanch : (three (exec (.scanch 2 0x31#8) (desk (clerk .entry)))).scan = some ⟨[0x31#8], false, 50⟩ ∧
    (three (exec (.scanch 2 0x31#8) (desk (clerk .locked)))).scanRejects = 1 := by decide +kernel
/-- R24, R25, R40. -/
theorem test_pause : (three (exec (.pause 2) (desk (clerk .entry)))).dr.paused = true := by decide +kernel
theorem test_resume : (three (exec (.resume 2) (after (exec (.pause 2) (desk (clerk .entry)))))).dr.paused = false := by
  decide +kernel
theorem test_present :
    (three (exec (.present 2) (desk ({ Station.atReset with link := .detached })))).dr.silence = some 2000 ∧
    (after (exec (.present 2) (desk ({ Station.atReset with link := .detached })))).causes[3] = 0x01#8 := by decide +kernel
/-- R193. -/
theorem test_linkByte : (three (exec (.linkByte 2 0x81#8 true 0) (desk (clerk .entry)))).dr.rx = some (.keyLead, 10) ∧
    (three (exec (.linkByte 2 0x83#8 true 0) (desk (clerk .entry)))).dr.paused = true := by decide +kernel
theorem test_linkByteTimeout :
    (three (exec (.linkByteTimeout 2) (after (exec (.linkByte 2 0x81#8 true 0) (desk (clerk .entry)))))).dr.rx = none := by
  decide +kernel
/-- R26, R34, R42. -/
theorem test_silenceTimerExpiry : (three (exec (.silenceTimerExpiry 2) (desk (clerk .entry)))).link = .detached ∧
    (after (exec (.silenceTimerExpiry 2) (desk (clerk .entry)))).causes[3] = 0x02#8 := by decide +kernel
theorem test_repeatTimerExpiry :
    (three (exec (.repeatTimerExpiry 2) (desk { clerk .entry with rep := some ⟨0x06#8, .move .right, 0⟩ }))).sheet.cursor =
      171 := by decide +kernel
theorem test_gapTimerExpiry : (three (exec (.gapTimerExpiry 2) (desk scanning))).error = some .checkDigit := by
  decide +kernel
theorem test_probeTimerExpiry : (three (exec (.probeTimerExpiry 2) (desk (clerk .entry)))).dr.inFlight = some .probe := by
  decide +kernel
/-- R38, R39, R43: line 24 goes first, and begins with READY and a blank. -/
def marked : Station := { clerk .entry with dr := { (clerk .entry).dr with stale := Vector.replicate 25 true } }
theorem test_startMessage :
    (three (exec (.startMessage 2) (desk marked))).dr.inFlight.map (fun m => m.bytes.take 6) =
      some [0x91#8, 24#8, 0x52#8, 0x00#8, 0x45#8, 0x00#8] ∧
    (three (exec (.startMessage 2) (desk marked))).dr.inFlight.map (fun m => m.bytes.length) = some 162 := by decide +kernel
theorem test_messageComplete :
    (three (exec (.messageComplete 2) (after (exec (.startMessage 2) (desk marked))))).dr.inFlight = none := by
  decide +kernel
theorem test_frameForOtherUnit : (after (exec .frameForOtherUnit running)).answer = none := by decide +kernel
/-- R168: the second length byte of a length above 2048 aborts. -/
theorem test_hostLineByte :
    (after (exec (.hostLineByte 0x01#8 false) { running with receiver := .inFrame [1#8, 0#8, 1#8, 0x08#8] 3 })).framingErrors = 1 ∧
    (after (exec (.hostLineByte 0x00#8 false) { running with receiver := .inFrame [1#8, 0#8, 1#8, 0x08#8] 3 })).framingErrors = 0 := by
  decide +kernel

/-! ### Witnesses: for each statement with hypotheses, a state and operands that meet them, clause by clause -/

theorem witness_StepRunsFrontCommand : ({ running with pending := [.mark] } : State).pending = .mark :: [] := rfl

theorem witness_CommandsKeepWaitingQueue : exec .mark running = .next (after (exec .mark running)) := rfl

/-- Station 3 about to fall silent. -/
def silent : State := desk { clerk .entry with dr := { (clerk .entry).dr with silence := some 1 } }
theorem witness_EmptyQueueStepPassesOneMillisecond :
    (running.pending = [] ∧ running.receiver = .hunting ∧ running.hostDriverEnabled = false) ∧
    (∀ n k, (running.station n).timeLeft k ≠ some 0 ∧ (running.station n).timeLeft k ≠ some 1) ∧
    (silent.pending = [] ∧ silent.receiver = .hunting ∧ silent.hostDriverEnabled = false) ∧
    (silent.station 2).link = .attached ∧ (silent.station 2).dr.silence = some 1 ∧
    ∀ m k, (m ≠ 2 ∨ k ≠ .silence) → (silent.station m).timeLeft k ≠ some 0 ∧ (silent.station m).timeLeft k ≠ some 1 := by
  refine ⟨by decide +kernel, ?_, by decide +kernel, by decide +kernel, by decide +kernel, ?_⟩
  · intro n k; cases k <;> revert n <;> decide +kernel
  · intro m k; cases k <;> revert m <;> decide +kernel

/-- A RESTART's ACCEPT being sent. -/
def restarting : State := after (exec .answerSendStart (after (exec (.restart 0x00#8 []) running)))
theorem witness_ResetGivesEveryBlockItsValues : running.Serving ∧
    ∃ a ∈ restarting.answer, a.sending = true ∧ a.kind = .accept ∧ a.restart = true := by decide +kernel

/-- The same while a header row is programmed. -/
def restartingLate : State := { closing with answer := restarting.answer }
theorem witness_ResetKeepsTemplateMemory :
    (loading.store.WorkSound ∧ loading.store.MemorySound ∧
      exec (.powerOnReset 7 0) loading = .next (after (exec (.powerOnReset 7 0) loading)) ∧
      loading.store.rowNow.map RowJob.row = some 1) ∧
    (restartingLate.store.WorkSound ∧ restartingLate.store.MemorySound ∧
      (∃ a ∈ restartingLate.answer, a.sending = true ∧ a.kind = .accept ∧ a.restart = true) ∧
      exec .answerComplete restartingLate = .next (after (exec .answerComplete restartingLate)) ∧
      restartingLate.store.rowNow.map RowJob.row = some 0) ∧
    erasing.store.WorkSound ∧ erasing.store.MemorySound ∧ erasing.store.eraseNow = some 40 := by
  refine ⟨⟨by decide +kernel, by decide +kernel, rfl, by decide +kernel⟩,
    ⟨by decide +kernel, by decide +kernel, by decide +kernel, rfl, by decide +kernel⟩,
    by decide +kernel, by decide +kernel, by decide +kernel⟩

theorem witness_MarkNeedsQuiet :
    (running.receiver = .hunting ∧ running.hostDriverEnabled = false ∧ running.quietLeft = 0) ∧
    State.reset.receiver = .hunting ∧ State.reset.hostDriverEnabled = false ∧ State.reset.quietLeft ≠ 0 := by
  decide +kernel

theorem witness_FrameBytesTakenOrAborted :
    (∀ a ∈ running.answer, a.sending = true → a.frame[a.readBack]? ≠ some 0xC2#8) ∧
    running.hostDriverEnabled = false ∧ running.receiver = .hunting ∧ (0xC2#8 : Byte) ≠ 0xC3#8 ∧
    ({ running with receiver := .inFrame [1#8, 0#8, 1#8] 1 } : State).receiver = .inFrame [1#8, 0#8, 1#8] 1 ∧
    [1#8, 0#8, 1#8].length < 4 ∧ 2048 < number [0x08#8, 0x01#8] := by decide +kernel

theorem witness_FrameArrivesByteByByte : running.receiver = .hunting ∧ running.hostDriverEnabled = false ∧
    running.quietLeft = 0 ∧ (List.replicate 2048 0x00#8 : List Byte).length ≤ 2048 := by decide +kernel

theorem witness_ForeignAndDamagedFrames : running.receiver = .hunting ∧ running.hostDriverEnabled = false ∧
    running.quietLeft = 0 ∧ ([] : List Byte).length ≤ 2048 ∧ (0x02#8 : Byte) ≠ running.unitAddr ∧
    (0x01#8 : Byte) = running.unitAddr ∧
    [0x00#8, 0x00#8] ≠ bytes2 (crc (frameBody 0x01#8 0x00#8 0x10#8 [])).toNat := by decide +kernel

theorem witness_DispatchRefusesInOrder : State.reset.hostDriverEnabled = false ∧ State.reset.store.phase = .starting ∧
    (0x11#8 : Byte) ≠ 0x10#8 ∧ DownKind.poll ≠ .status ∧ running.hostDriverEnabled = false ∧
    running.store.phase = .running ∧ (∀ k : DownKind, k.code ≠ 0x17#8) ∧ DownKind.poll.serves 0x0D#8 = false ∧
    DownKind.write.serves 0x00#8 = false ∧ DownKind.status.serves 0x01#8 = false := by
  refine ⟨by decide, by decide, by decide, by decide, by decide, by decide, ?_, by decide, by decide, by decide⟩
  intro k; cases k <;> decide

/-- A NOTHING being sent. -/
def sendingNothing : State := after (exec .answerSendStart waitingAnswer)
theorem witness_AnswerIsSentAndCompletes : (∃ a ∈ waitingAnswer.answer, a.sending = false ∧ a.readBack = 0) ∧
    ∃ a ∈ sendingNothing.answer, a.sending = true ∧ a.kind ≠ .release ∧ a.restart = false := by decide +kernel

theorem witness_AbandonedAnswerLosesOnlyTheAnswer : running.answer = none ∧
    (waitingAnswer.receiver = .hunting ∧ ∃ a ∈ waitingAnswer.answer, a.sending = false ∧ waitingAnswer.quietLeft ≠ 0) ∧
    (sendingNothing.receiver = .hunting ∧ ∃ a ∈ sendingNothing.answer, a.sending = true ∧
      a.frame[a.readBack]? = some 0x3C#8 ∧ a.frame[a.readBack]? ≠ some 0xC3#8) ∧
    (∃ a ∈ ({ waitingAnswer with quietLeft := 0 } : State).answer, a.sending = false) := by decide +kernel

/-- Station 3 RELEASED with the record of section 11.6, and that record being handed over. -/
def released : State := { after (exec (.keyDown 2 0x0D#8 0) (desk order)) with quietLeft := 0 }
def handing : State := after (exec .answerSendStart (after (exec (.poll 0x03#8 []) released)))
theorem witness_ReleaseCompletionFreesStaging : handing.ReleasesSound ∧
    ∃ a ∈ handing.answer, a.sending = true ∧ a.kind = .release ∧
      ∃ r ∈ handing.rq.queue, a.station = stationByte r.station := by decide +kernel

/-- A record, and an urgent one behind it. -/
def small (n : StationIx) (p : Priority) : Record := ⟨n, 0x01#8, p, 0, 0, [], 6⟩
def twoQueued : State := { running with rq := ⟨12, [small 0 .normal, small 1 .urgent], []⟩ }
theorem witness_PollHandsOverRecord : (running.Serving ∧ running.rq.queue = [] ∧ ∀ q ∈ running.rq.queue, q.station ≠ 0) ∧
    (twoQueued.Serving ∧ twoQueued.rq.queue = [small 0 .normal] ++ small 1 .urgent :: [] ∧
      (small 1 .urgent).priority = .urgent ∧ (∀ q ∈ [small 0 .normal], q.priority ≠ .urgent) ∧
      (small 1 .urgent).station = 1 ∧ ∀ q ∈ [small 0 .normal], q.station ≠ 1) ∧
    released.Serving ∧ released.rq.queue.length = 1 ∧ (∀ q ∈ released.rq.queue, q.priority ≠ .urgent) ∧
    ([0x00#8] : List Byte) ≠ [] ∧ ([0x00#8] : List Byte).length ≤ 2048 := by decide +kernel

theorem witness_ReadFormCarriesSelectedFields : (desk order).Serving ∧ 65535 < 65536 ∧ 0 < 65536 := by decide +kernel

theorem witness_ReadingKindsReportState : State.reset.hostDriverEnabled = false ∧ running.hostDriverEnabled = false ∧
    running.store.phase = .running ∧ (0x00#8 : Byte).toNat = 0 ∧ 12 < (0x0D#8 : Byte).toNat := by decide +kernel

theorem witness_CountersReadClearsNothing : running.Serving := by decide +kernel

theorem witness_ManagementLengthRefused : running.Serving ∧ ([0x00#8] : List Byte) ≠ [] ∧
    ([] : List Byte).length ≠ 1 ∧ (List.replicate 3 0x00#8 : List Byte).length ≠ 2 ∧
    (List.replicate 13 0x00#8 : List Byte).length ≠ 12 ∧ (List.replicate 23 0x00#8 : List Byte).length ≠ 24 ∧
    40 < (List.replicate 41 0x00#8 : List Byte).length ∧
    ∀ m plane first count rest, [1#8, 0#8, 1#8, 1#8, 0#8] = m :: plane :: first :: count :: rest →
      rest.length ≠ 2 * count.toNat := by
  refine ⟨by decide +kernel, by decide, by decide, by decide, by decide, by decide, by decide, ?_⟩
  rintro m plane first count rest ⟨⟩
  decide

theorem witness_AttentionReadAndClear : running.Serving ∧ (12 : Fin 13).1 = (0x0C#8 : Byte).toNat ∧
    12 < (0x0D#8 : Byte).toNat := by decide +kernel

theorem witness_AttentionMaskReplacesBoth : running.Serving := by decide +kernel

theorem witness_ClassSetReplacesRecord : running.Serving ∧ (999999999 < 2 ^ 32 ∧ 1000000000 < 2 ^ 32) ∧
    (List.replicate 12 0x00#8 : List Byte).length = 12 ∧ 15 < (16#8 : Byte).toNat ∧ (0#8 : Byte).toNat = 0 ∧
    (15#8 : Byte).toNat ≤ 15 ∧ 4 < (5#8 : Byte).toNat ∧ (4#8 : Byte).toNat ≤ 4 ∧ 2 < (3#8 : Byte).toNat ∧
    (2#8 : Byte).toNat ≤ 2 ∧ 999999999 < 1000000000 := by decide +kernel

theorem witness_KeymapSetReplacesRun : running.Serving ∧ running.KeyMapsSound ∧
    ([(1#8, 65#8)] : List (Byte × Byte)).length < 256 ∧ 3 < (4#8 : Byte).toNat ∧ (0#8 : Byte).toNat = 0 ∧
    (3#8 : Byte).toNat ≤ 3 ∧
    (127#8 : Byte).toNat + ([(1#8, 65#8)] : List (Byte × Byte)).length - 1 ≤ 127 ∧
    127 < (127#8 : Byte).toNat + ([(1#8, 65#8), (1#8, 66#8)] : List (Byte × Byte)).length - 1 := by decide +kernel

theorem witness_BroadcastReachesEnabledStations : (desk (clerk .entry)).Serving ∧
    (List.replicate 40 0x41#8 : List Byte).length ≤ 40 ∧ ((desk (clerk .entry)).station 0).link = .disabled ∧
    ((desk (clerk .entry)).station 2).link ≠ .disabled := by decide +kernel

theorem witness_StationSetupWritesProfile : (desk (clerk .entry)).Serving ∧ 65535 < 65536 ∧ 12 < (13#8 : Byte).toNat ∧
    3 < (4#8 : Byte).toNat ∧ (3 : Fin 4).1 = (3#8 : Byte).toNat ∧ 0xEF < (0xF0#8 : Byte).toNat ∧
    (0xEF#8 : Byte).toNat ≤ 0xEF ∧ (1#8 : Byte) ≠ 0x00#8 ∧ ((desk (clerk .entry)).station 0).link = .disabled ∧
    ((desk (clerk .entry)).station 2).link ≠ .disabled := by decide +kernel

theorem witness_StationSetupDisables : released.Serving ∧ released.ReleasesSound ∧ (0xEF#8 : Byte).toNat ≤ 0xEF ∧
    (released.station 2).link ≠ .disabled ∧ (released.station 2).input = .released := by decide +kernel

/-- Slot 0's group protected; slot 8 DIRTY. -/
def guarded : State :=
  { running with store := { running.store with
      protect := running.store.protect.set 0 true, slots := running.store.slots.set 8 .dirty } }
theorem witness_LoadOpenReservesErasedSlots :
    (opened.Serving ∧ opened.store.session ≠ none) ∧
    (erasing.Serving ∧ erasing.store.session = none ∧ erasing.store.op ≠ none) ∧
    (guarded.Serving ∧ guarded.store.session = none ∧ guarded.store.op = none ∧
      250 < (251#8 : Byte).toNat ∧ 8 < (9#8 : Byte).toNat ∧ 64 < (57#8 : Byte).toNat + (8#8 : Byte).toNat ∧
      (∀ e ∈ guarded.store.directory, e.form ≠ 0xFA#8) ∧
      guarded.store.slotProtected 3 = true ∧ guarded.store.slotProtected 4 = false ∧
      guarded.store.slot 7 = .erased ∧ guarded.store.slot 8 ≠ .erased) ∧
    (running.Serving ∧ (56#8 : Byte).toNat + (8#8 : Byte).toNat ≤ 64 ∧
      (∀ k, 56 ≤ k ∧ k < 56 + 8 → running.store.slotProtected k = false ∧ running.store.slot k = .erased)) ∧
    listed.Serving ∧ listed.store.directory = [] ++ ⟨0x05#8, 40, 1, 60⟩ :: [] := by
  refine ⟨by decide +kernel, by decide +kernel, by decide +kernel, ⟨by decide +kernel, by decide +kernel, ?_⟩,
    by decide +kernel, by decide +kernel⟩
  intro k hk
  have h : ∀ i : Fin 8, running.store.slotProtected (56 + i.1) = false ∧ running.store.slot (56 + i.1) = .erased := by
    decide +kernel
  have := h ⟨k - 56, by omega⟩
  simpa [show 56 + (k - 56) = k by omega] using this

/-- An open session as given, nothing in flight. -/
def inSession (ss : Session) : State := { opened with store := { opened.store with session := some ss } }
def fresh : Session := ⟨0x05#8, 40, 1, 0, [], false, none, false, 0⟩
theorem witness_LoadDataBeginsRowPrograms :
    (running.Serving ∧ ∀ ss ∈ running.store.session, ss.abandoning = true) ∧
    ((inSession fresh).Serving ∧ (inSession fresh).store.session = some fresh ∧ fresh.abandoning = false ∧
      (inSession { fresh with failed := true }).store.session = some { fresh with failed := true }) ∧
    (loading.Serving ∧ (∃ ss ∈ loading.store.session, ss.abandoning = false ∧ ss.failed = false) ∧
      loading.store.op ≠ none) ∧
    (fresh.failed = false ∧ (inSession fresh).store.op = none ∧ (List.replicate 63 0x00#8 : List Byte).length < 64 ∧
      1024 < (List.replicate 1025 0x00#8 : List Byte).length ∧ (List.replicate 1024 0x00#8 : List Byte).length = 64 * 16 ∧
      (List.replicate 64 0x00#8 : List Byte).length = 64 * 1 ∧ (1#8 : Byte).toNat ≠ fresh.expected ∧
      (0#8 : Byte).toNat = fresh.expected ∧ (0#8 : Byte).toNat + 16 ≤ 31 * fresh.count ∧
      31 * fresh.count < (31#8 : Byte).toNat + 1 ∧
      (31#8 : Byte).toNat = ({ fresh with expected := 31 } : Session).expected) := by decide +kernel

theorem witness_LoadCloseValidatesThenProgramsHeaders : loaded.Serving ∧
    (∃ ss ∈ loaded.store.session, ss.abandoning = false ∧ 1 ≤ ss.count ∧ ss.failed = false ∧ loaded.store.op = none ∧
      imageFault (readImage loaded.store.mem ss.first 60) ss.form 60 ss.expected = none ∧
      imageFault (readImage loaded.store.mem ss.first 15) ss.form 15 ss.expected = some (.length, 0)) ∧
    ((inSession { fresh with failed := true }).Serving ∧ loading.Serving ∧ loading.store.op ≠ none ∧
      running.Serving ∧ ∀ ss ∈ running.store.session, ss.abandoning = true) := by decide +kernel

theorem witness_ValidImageBuildsSoundSheet : imageFault image 0x05#8 image.length 1 = none ∧
    3 - 1 < imageByte image 4 ∧ imageByte image 3 ≠ 0 ∧ templateField image 2 = some field12 := by decide +kernel

theorem witness_LoadAbandonEndsSession : (running.Serving ∧ ∀ ss ∈ running.store.session, ss.abandoning = true) ∧
    (loading.Serving ∧ (∃ ss ∈ loading.store.session, ss.abandoning = false) ∧ loading.store.rowNow.isSome = true) ∧
    (loaded.Serving ∧ (∃ ss ∈ loaded.store.session, ss.abandoning = false)) ∧
    ∀ job, loaded.store.op ≠ some (.rowProgram job) := by
  refine ⟨by decide +kernel, by decide +kernel, by decide +kernel, fun job => ?_⟩
  have : loaded.store.op = none := by decide +kernel
  rw [this]; exact fun h => nomatch h

/-- Two image rows on their way, the first in flight. -/
def twoRows : State :=
  after (exec (.loadData 0x00#8 (0x00#8 :: List.replicate 128 0x41#8)) opened)
theorem witness_RowProgramSucceeds :
    (loading.store.MemorySound ∧ loading.store.rowNow.isSome = true ∧
      (∃ ss ∈ loading.store.session, ss.abandoning = false ∧ ss.closing = none) ∧ loading.store.rowsWaiting = []) ∧
    (closing.store.MemorySound ∧ closing.store.rowNow.isSome = true ∧
      (∃ ss ∈ closing.store.session, ss.abandoning = false ∧ ss.closing = some 60) ∧ closing.store.rowsWaiting = []) ∧
    (twoRows.store.MemorySound ∧ twoRows.store.rowNow.isSome = true ∧ twoRows.store.rowsWaiting.length = 1) ∧
    ∃ ss ∈ (after (exec (.loadAbandon 0x00#8 []) loading)).store.session, ss.abandoning = true := by
  refine ⟨?_, ?_, ?_, ?_⟩ <;> decide +kernel

theorem witness_RowProgramFails :
    (∃ job ∈ loading.store.rowNow, job.bytes.length = 64) ∧
    (∃ ss ∈ loading.store.session, ss.abandoning = false ∧ ss.closing = none) ∧
    (∃ job ∈ closing.store.rowNow, job.bytes.length = 64) ∧ ∃ ss ∈ closing.store.session, ss.closing ≠ none := by
  decide +kernel

/-- A template over slots 40 and 41. -/
def broad : DirEntry := ⟨0x05#8, 40, 2, 60⟩
def wide : State :=
  { listed with store := { listed.store with directory := [broad], slots := listed.store.slots.set 41 .tail } }
theorem witness_EraseSlotsSortsRange : (erasing.Serving ∧ erasing.store.op ≠ none) ∧
    (opened.Serving ∧ opened.store.op = none ∧ opened.store.session ≠ none) ∧
    (wide.Serving ∧ wide.store.op = none ∧ wide.store.session = none ∧ 63 < (64#8 : Byte).toNat ∧
      (0#8 : Byte).toNat < (1#8 : Byte).toNat ∧ wide.store.directory = [] ++ broad :: [] ∧
      broad.straddles 41 63 = true ∧ broad.straddles 40 41 = false) ∧
    running.Serving ∧ running.store.op = none ∧ running.store.session = none ∧ running.store.directory = [] ∧
    (63#8 : Byte).toNat ≤ 63 := by decide +kernel

theorem witness_SlotEraseCompletes : erasing.store.op = some (.slotErase 40) ∧ erasing.store.erasesWaiting = [] ∧
    (after (exec (.eraseSlots 0x00#8 [40#8, 41#8]) wide)).store.op = some (.slotErase 40) ∧
    (after (exec (.eraseSlots 0x00#8 [40#8, 41#8]) wide)).store.erasesWaiting = [41] := by decide +kernel

/-- A control update in flight. -/
def protecting : State := after (exec (.protect 0x00#8 [0x0F#8, 0x01#8]) running)
theorem witness_ProtectBeginsAndEndsControlUpdate : (erasing.Serving ∧ erasing.store.op ≠ none) ∧
    (opened.Serving ∧ opened.store.op = none ∧ 15 < (16#8 : Byte).toNat ∧ 1 < (2#8 : Byte).toNat ∧
      (10 : Fin 16).1 = (10#8 : Byte).toNat ∧ (1#8 : Byte).toNat = 1 ∧
      (∃ k : Fin 64, k.1 / 4 = (10 : Fin 16).1 ∧ opened.store.slots[k] = .loading) ∧
      (15 : Fin 16).1 = (15#8 : Byte).toNat ∧ ∀ k : Fin 64, k.1 / 4 = (15 : Fin 16).1 → opened.store.slots[k] ≠ .loading) ∧
    protecting.store.op = some (.controlUpdate 15 true) := by decide +kernel

theorem witness_StartUpScanFindsTemplates : State.reset.store.op = some .startUpScan ∧ State.reset.store.MemorySound ∧
    (after (exec (.powerOnReset 7 0) listed)).store.op = some .startUpScan ∧
    (after (exec (.powerOnReset 7 0) listed)).store.MemorySound ∧
    templateAt (after (exec (.powerOnReset 7 0) listed)).store.mem 40 = some ⟨0x05#8, 40, 1, 60⟩ := by decide +kernel

/-- One whole directive of each code of R53, the operands zero and the counted ones empty or of one character. -/
def directives : List (List Byte) :=
  [[0x02#8, 0#8, 0#8], [0x03#8, 0#8, 0#8], [0x04#8, 0#8], [0x05#8, 0#8, 0#8], [0x06#8, 1#8, 0x41#8],
    [0x07#8, 0#8, 0#8, 0#8], [0x08#8, 0#8, 0#8, 0#8, 0#8, 0#8, 0#8, 0#8], [0x09#8, 0#8], [0x0A#8, 0#8, 0#8, 0#8, 0#8],
    [0x0B#8, 0#8, 0#8], [0x0C#8, 0#8], [0x0D#8, 0#8], [0x0E#8, 0#8], [0x0F#8], [0x10#8], [0x11#8, 0#8],
    [0x12#8, 0#8, 0#8, 0#8, 0#8, 0#8]]

theorem witness_WriteRefusedBeforeItChangesAnything : running.Serving ∧ (running.station 2).link = .disabled ∧
    ((desk (clerk .locked)).Serving ∧ ((desk (clerk .locked)).station 2).link ≠ .disabled ∧
      ((desk (clerk .locked)).station 2).input ≠ .released ∧ ((desk (clerk .locked)).station 2).input ≠ .roomWait) ∧
    (released.Serving ∧ (released.station 2).link ≠ .disabled ∧ (released.station 2).input = .released ∧
      (0x0F#8 : Byte).getLsbD 4 = false ∧ (0x10#8 : Byte).getLsbD 4 = true) ∧
    (running.PassesPhase1 ([0x01#8, 0x05#8] :: directives) ∧ erasing.PassesPhase1 directives ∧
      directives.flatten.length ≤ 2000) ∧
    (0x12 < (0x13#8 : Byte).toNat ∧ cutDirective 0x01#8 [] = true ∧ cutDirective 0x08#8 [0#8, 0#8] = true ∧
      cutDirective 0x06#8 [0x02#8, 0x41#8] = true ∧ cutDirective 0x11#8 [] = true) ∧
    (({ erasing with stations := (desk (clerk .locked)).stations } : State).Serving ∧ erasing.store.op ≠ none ∧
      ([0x05#8] : List Byte) ≠ []) := by decide +kernel

/-- R48: a directive cut short, an unknown code and a FORM while the store is busy, behind whole directives. -/
theorem test_write_phase1 :
    answered (exec (.write 0x03#8 (0x00#8 :: directives.flatten ++ [0x11#8, 0x02#8, 0x41#8])) (desk (clerk .locked))) =
      some (.refuse, [0x07#8, 0x02#8] ++ bytes2 (1 + directives.flatten.length)) ∧
    answered (exec (.write 0x03#8 (0x00#8 :: directives.flatten ++ [0x13#8])) (desk (clerk .locked))) =
      some (.refuse, [0x07#8, 0x01#8] ++ bytes2 (1 + directives.flatten.length)) := by decide +kernel

theorem witness_WriteTextPlacesCharacters : (desk (clerk .locked)).Serving ∧ (desk (clerk .locked)).SheetsSound ∧
    ((desk (clerk .locked)).station 2).Writable ∧ 1919 < ((desk (clerk .locked)).station 2).sheet.size ∧
    (List.replicate 255 0x41#8 : List Byte).length ≤ 255 := by decide +kernel

theorem witness_WriteFieldChecksAndInserts : (desk (clerk .locked)).Serving ∧ (desk (clerk .locked)).SheetsSound ∧
    ((desk (clerk .locked)).station 2).Writable ∧ 160 < 161 ∧
    (∃ f ∈ ((desk (clerk .locked)).station 2).sheet.fields, f.number = 10) ∧
    (∀ f ∈ ((desk (clerk .locked)).station 2).sheet.fields, f.number ≠ 160) ∧ (0xFF#8 : Byte) ≠ 0x00#8 ∧
    ((desk (clerk .locked)).station 2).sheet.size < 1919 + (2#8 : Byte).toNat ∧
    1919 + (1#8 : Byte).toNat ≤ ((desk (clerk .locked)).station 2).sheet.size ∧ 15 < (16#8 : Byte).toNat ∧
    (15 : Fin 16).1 = (15#8 : Byte).toNat ∧
    (∃ g ∈ ((desk (clerk .locked)).station 2).sheet.fields, 175 < g.start + g.length ∧ g.start < 175 + (1#8 : Byte).toNat) ∧
    ∀ g ∈ ((desk (clerk .locked)).station 2).sheet.fields, 176 + (74#8 : Byte).toNat ≤ g.start ∨ g.start + g.length ≤ 176 := by
  decide +kernel

/-- A station whose sheet has a band of three instances of one field. -/
def banded : State := desk { clerk .locked with sheet := { formSheet with band := some ⟨10, 1, 3, 2, 7⟩ } }
theorem witness_BandTranslatesInstances : (banded.Serving ∧ banded.SheetsSound ∧ (banded.station 2).Writable) ∧
    printable 0x7E#8 = true ∧ ((desk (clerk .locked)).Serving ∧ (desk (clerk .locked)).SheetsSound ∧
      ((desk (clerk .locked)).station 2).Writable ∧ ((desk (clerk .locked)).station 2).sheet.band = none) ∧
    ∃ b ∈ (banded.station 2).sheet.band, b.items ≤ (3#8 : Byte).toNat ∧ b.perItem ≤ (1#8 : Byte).toNat ∧
      (2#8 : Byte).toNat < b.items ∧ (0#8 : Byte).toNat < b.perItem ∧
      ∃ f ∈ (banded.station 2).sheet.fields,
        f.number = b.firstField + (2#8 : Byte).toNat * b.perItem + (0#8 : Byte).toNat := by
  refine ⟨?_, ?_, ?_, ?_⟩ <;> decide +kernel
/-- The same with no field 12. -/
def bandedBare : State := desk { clerk .locked with sheet := { formSheet with
  fields := [field10, field11], band := some ⟨10, 1, 3, 2, 7⟩ } }
theorem witness_BandTranslatesInstances_missing : bandedBare.Serving ∧ bandedBare.SheetsSound ∧
    (bandedBare.station 2).Writable ∧ ∃ b ∈ (bandedBare.station 2).sheet.band, (2#8 : Byte).toNat < b.items ∧
      ∀ f ∈ (bandedBare.station 2).sheet.fields,
        f.number ≠ b.firstField + (2#8 : Byte).toNat * b.perItem + (0#8 : Byte).toNat := by
  refine ⟨?_, ?_, ?_, ?_⟩ <;> decide +kernel

/-- Station 3 LOCKED with a RIGHT keyed ahead. -/
def keyedAhead : State := desk { clerk .locked with typeAhead := [.move .right] }
theorem witness_WriteFlagsSetInputState :
    ((desk (clerk .locked)).Serving ∧ ((desk (clerk .locked)).station 2).Writable ∧
      ((desk (clerk .locked)).station 2).typeAhead = []) ∧
    (keyedAhead.Serving ∧ (keyedAhead.station 2).Writable ∧ (keyedAhead.station 2).input = .locked ∧
      (keyedAhead.station 2).typeAhead = [.move .right] ∧ (0x01#8 : Byte).getLsbD 0 = true) ∧
    (released.Serving ∧ released.ReleasesSound ∧ (released.station 2).link ≠ .disabled ∧
      (released.station 2).input = .released ∧ (0x10#8 : Byte).getLsbD 4 = true ∧ released.PassesPhase1 directives ∧
      directives.flatten.length ≤ 2047) := by decide +kernel

/-- R50: DISCARD RELEASE frees the staging memory and leaves the station LOCKED. -/
theorem test_write_discards : (after (exec (.write 0x03#8 [0x10#8]) released)).rq = ⟨0, [], []⟩ ∧
    (three (exec (.write 0x03#8 [0x10#8]) released)).input = .locked := by decide +kernel

theorem witness_CharacterKeyStoredOrHeld :
    ((desk (clerk .entry)).SheetsSound ∧ ((desk (clerk .entry)).station 2).KeyReady ∧
      ((desk (clerk .entry)).station 2).Processing ∧ field10 ∈ ((desk (clerk .entry)).station 2).sheet.fields ∧
      field10.isInput = true ∧ field10.covers 170 = true ∧
      (classRec (desk (clerk .entry)).classes field10.props.cls).permitsChar 0x7E#8 = true ∧ 170 + 1 < 170 + 6) ∧
    ((desk { clerk .entry with sheet := { formSheet with cursor := 250 } }).SheetsSound ∧
      field11.isInput = true ∧ field11.covers 250 = true ∧
      (classRec running.classes field11.props.cls).permitsChar 0x41#8 = false) ∧
    (desk { clerk .entry with sheet := { formSheet with cursor := 176 } }).SheetsSound ∧
    ∀ f ∈ formSheet.fields, f.isInput = true → f.covers 176 = false := by
  refine ⟨?_, ?_, ?_, ?_⟩ <;> decide +kernel

/-- The cursor on the last cell of an edited field whose content passes, and of one whose content fails. -/
def leavingGood : State := desk { clerk .entry with sheet := { formSheet with cursor := 175, edited := some 10 } }
def leavingBad : State :=
  desk { clerk .entry with sheet := { formSheet.putCells 250 [0x31#8] with cursor := 257, edited := some 11 } }
theorem witness_MoveOutOfEditedFieldRunsExitCheck :
    (leavingGood.SheetsSound ∧ (leavingGood.station 2).KeyReady ∧ (leavingGood.station 2).Processing ∧
      field10.covers 176 = false ∧ valueChecks (classRec running.classes field10.props.cls) field10.props.fill
        (formSheet.content field10) = none) ∧
    (leavingBad.SheetsSound ∧ (leavingBad.station 2).KeyReady ∧ (leavingBad.station 2).Processing ∧
      field11.covers 258 = false ∧ valueChecks (classRec running.classes field11.props.cls) field11.props.fill
        ((leavingBad.station 2).sheet.content field11) = some .checkDigit) ∧
    (desk (clerk .entry)).SheetsSound ∧ formSheet.edited = none ∧ field10.covers 171 = true := by
  refine ⟨?_, ?_, ?_, ?_, ?_⟩ <;> decide +kernel

/-- The order of section 11.6 with no edited field. -/
def readyOrder : State := desk { order with sheet := { order.sheet with edited := none } }
/-- A sheet of eight fields of 255 characters, always sent: a record of 2062 bytes. -/
def bigSheet : Sheet :=
  { Sheet.blank 72 0 with
      cells := (List.range 8).map fun i => (255 * i + 254, 0x41#8)
      fields := (List.range 8).map fun i =>
        ⟨i + 1, 255 * i, 255, { props .left false 0 .none with alwaysSend := true }, false⟩ }
theorem witness_ReleaseKeyQueuesRecord :
    (readyOrder.SheetsSound ∧ (readyOrder.station 2).KeyReady ∧ (readyOrder.station 2).Processing ∧
      (readyOrder.station 2).sheet.edited = none ∧
      (∀ g ∈ (readyOrder.station 2).sheet.fields, (readyOrder.station 2).sheet.releaseFault readyOrder.classes g = none) ∧
      readyOrder.rq.rooms = [] ∧ readyOrder.rq.staging + 29 ≤ 8192) ∧
    8192 < 8164 + 29 ∧
    ((desk (clerk .entry)).SheetsSound ∧ ((desk (clerk .entry)).station 2).KeyReady ∧
      formSheet.fields = [] ++ field10 :: [field11, field12] ∧
      formSheet.releaseFault running.classes field10 = some .entryRequired) ∧
    (desk { clerk .entry with sheet := bigSheet }).SheetsSound ∧
    (∀ g ∈ bigSheet.fields, bigSheet.releaseFault running.classes g = none) ∧
    2048 < recordSize (bigSheet.releaseEntries true) := by
  refine ⟨?_, ?_, ?_, ?_, ?_, ?_⟩ <;> decide +kernel

theorem witness_KeyActionsRoutedByInputState :
    (((desk (clerk .locked)).station 2).KeyReady ∧ ((desk (clerk .locked)).station 2).Queueing ∧
      ((desk (clerk .locked)).station 2).typeAhead.length < 32) ∧
    (((desk { clerk .waiting with typeAhead := List.replicate 32 .reset }).station 2).KeyReady ∧
      32 ≤ ((desk { clerk .waiting with typeAhead := List.replicate 32 .reset }).station 2).typeAhead.length) ∧
    (((desk scanning).station 2).KeyReady ∧ ((desk scanning).station 2).input = .entry ∧
      ((desk scanning).station 2).scan ≠ none) ∧
    (((desk (clerk .held)).station 2).KeyReady ∧ ((desk (clerk .held)).station 2).input = .held) ∧
    ((desk (clerk .entry)).station 2).KeyReady ∧ ((desk (clerk .entry)).station 2).Processing ∧
    0x20 ≤ (0x20#8 : Byte).toNat ∧ (0x7E#8 : Byte).toNat ≤ 0x7E := by decide +kernel

/-- SHIFT held down, in LOCKED; and a chatter guard of 30 with a key-up remembered and a code suppressed. -/
def shifted : Station := { clerk .locked with shiftHolders := [0x11#8] }
def guardOn : Station :=
  { clerk .locked with
      profile := { Profile.atReset with chatter := 30 }, chatter := ⟨some (0x41#8, 100), some 0x42#8⟩ }
theorem witness_ModifiersAndChatterGuard :
    ((desk (clerk .entry)).station 2).KeyReady ∧
    (((desk shifted).station 2).link = .attached ∧ shifted.profile.chatter = 0 ∧ shifted.chatter.suppressed = none ∧
      shifted.profile.keyMap = 0 ∧ shifted.shiftHolders ≠ [] ∧ shifted.input = .locked ∧ shifted.typeAhead.length < 32 ∧
      0x61 ≤ (0x61#8 : Byte).toNat ∧ (0x7A#8 : Byte).toNat ≤ 0x7A) ∧
    (((desk guardOn).station 2).link = .attached ∧ guardOn.profile.chatter ≠ 0 ∧
      guardOn.chatter.keyUp = some (0x41#8, 100) ∧ 129 < 100 + guardOn.profile.chatter ∧
      guardOn.chatter.suppressed = some 0x42#8 ∧ guardOn.chatter.suppressed ≠ some 0x41#8) := by decide +kernel

theorem witness_ScanCharactersBuildScan :
    (((desk (clerk .entry)).station 2).link = .attached ∧ (clerk .entry).scan = none ∧
      (clerk .entry).profile.suffix ≠ 0x00#8 ∧ (0x0D#8 : Byte) = (clerk .entry).profile.suffix ∧
      (0x0C#8 : Byte) ≠ (clerk .entry).profile.suffix ∧ (clerk .entry).input = .entry) ∧
    (((desk (clerk .held)).station 2).link = .attached ∧ (clerk .held).scan = none ∧ (clerk .held).input ≠ .entry) ∧
    (((desk scanning).station 2).scan = some ⟨[0x37#8, 0x33#8, 0x35#8, 0x31#8, 0x33#8, 0x35#8, 0x33#8, 0x38#8], false, 50⟩) ∧
    (List.replicate 63 0x31#8 : List Byte).length < 64 ∧ 64 ≤ (List.replicate 64 0x31#8 : List Byte).length := by
  decide +kernel

/-- A closed scan of eight characters into field 11, with nothing to follow it; one too long; one into a LEFT field. -/
def quietProfile : Profile := { Profile.atReset with advance := false }
def scanBad : State := desk { scanning with typeAhead := [] }
def scanLong : State :=
  desk { clerk .entry with scan := some ⟨List.replicate 7 0x31#8, false, 50⟩ }
def scanLeft : State :=
  desk { clerk .entry with profile := quietProfile, scan := some ⟨List.replicate 6 0x31#8, false, 50⟩ }
theorem witness_ScanClosesIntoField :
    (scanBad.SheetsSound ∧ (scanBad.station 2).link = .attached ∧ (scanBad.station 2).input = .entry ∧
      (scanBad.station 2).typeAhead = [] ∧ (scanBad.station 2).profile.suffix ≠ 0x00#8 ∧
      ∃ sc ∈ (scanBad.station 2).scan, sc.overflow = false ∧ sc.buffer.length ≤ field11.length ∧
        field11.covers (scanBad.station 2).sheet.cursor = true ∧
        (∀ c ∈ sc.buffer, (classRec scanBad.classes field11.props.cls).permitsChar
          ((classRec scanBad.classes field11.props.cls).foldChar c) = true) ∧
        valueChecks (classRec scanBad.classes field11.props.cls) field11.props.fill
          (sc.buffer.map (classRec scanBad.classes field11.props.cls).foldChar ++
            List.replicate (field11.length - sc.buffer.length) 0x20#8) = some .checkDigit) ∧
    (scanLong.SheetsSound ∧ (scanLong.station 2).link = .attached ∧ (scanLong.station 2).input = .entry ∧
      (scanLong.station 2).typeAhead = [] ∧
      ∃ sc ∈ (scanLong.station 2).scan, ∀ f ∈ (scanLong.station 2).sheet.fields, f.isInput = true →
        f.covers (scanLong.station 2).sheet.cursor = true → f.length < sc.buffer.length) ∧
    (scanLeft.SheetsSound ∧ (scanLeft.station 2).link = .attached ∧ (scanLeft.station 2).input = .entry ∧
      (scanLeft.station 2).typeAhead = [] ∧ field10.props.justify = .left ∧ (scanLeft.station 2).profile.advance = false ∧
      (scanLeft.station 2).profile.releaseCode = 0x00#8 ∧
      ∃ sc ∈ (scanLeft.station 2).scan, sc.overflow = false ∧ sc.buffer.length ≤ field10.length ∧
        valueChecks (classRec scanLeft.classes field10.props.cls) field10.props.fill
          (sc.buffer.map (classRec scanLeft.classes field10.props.cls).foldChar ++
            List.replicate (field10.length - sc.buffer.length) 0x20#8) = none) := by
  refine ⟨?_, ?_, ?_⟩ <;> decide +kernel

theorem witness_TerminalMessagesAttachAndReload : ((desk (clerk .entry)).station 2).link = .attached ∧
    ((desk { Station.atReset with link := .detached }).station 2).link = .detached ∧
    (running.station 2).link = .disabled := by decide +kernel

theorem witness_MessageArrivesByteByByte : ((desk (clerk .entry)).station 2).link ≠ .disabled ∧
    ((desk (clerk .entry)).station 2).dr.rx = none ∧ (1 ≤ (1#8 : Byte).toNat ∧ (127#8 : Byte).toNat ≤ 127) ∧
    2 ≤ (2#8 : Byte).toNat ∧ (0#8 : Byte).toNat = 0 ∧ 127 < (128#8 : Byte).toNat ∧ (0x80#8 : Byte).toNat < 0x81 ∧
    0x85 < (0x86#8 : Byte).toNat := by decide +kernel

theorem witness_SilenceDetachesLink : ((desk (clerk .entry)).station 2).link = .attached ∧
    ((desk (clerk .entry)).station 2).dr.silence ≠ none := by decide +kernel

theorem witness_RepeatTimerRepeatsAction :
    (((desk { clerk .entry with rep := some ⟨0x06#8, .move .right, 1⟩ }).station 2).rep = some ⟨0x06#8, .move .right, 1⟩ ∧
      ((desk { clerk .entry with rep := some ⟨0x06#8, .move .right, 1⟩ }).station 2).Processing ∧ formSheet.edited = none) ∧
    ((desk { clerk .held with rep := some ⟨0x06#8, .move .right, 1⟩ }).station 2).rep = some ⟨0x06#8, .move .right, 1⟩ ∧
    ((desk { clerk .held with rep := some ⟨0x06#8, .move .right, 1⟩ }).station 2).input ≠ .entry := by decide +kernel

theorem witness_ProbesAndCompletions : (((desk (clerk .entry)).station 2).dr.probe ≠ none ∧
      ((desk (clerk .entry)).station 2).dr.inFlight = none) ∧
    (((desk { clerk .entry with dr := { (clerk .entry).dr with inFlight := some .alarm } }).station 2).dr.probe ≠ none ∧
      ((desk { clerk .entry with dr := { (clerk .entry).dr with inFlight := some .alarm } }).station 2).dr.inFlight ≠ none) := by
  decide +kernel

/-- Stations with an ALARM pending; with line 24, with line 23, and with the cursor alone stale; and with none. -/
def refreshing (alarm : Bool) (stale : Vector Bool 25) (cursorStale : Bool) (cursor : Nat) : Station :=
  { clerk .entry with
      sheet := { formSheet with rows := 72, cursor := cursor }
      dr := { (clerk .entry).dr with alarm := alarm, stale := stale, cursorStale := cursorStale } }
def noLines : Vector Bool 25 := Vector.replicate 25 false
theorem witness_RefreshChoosesFirstPending :
    (∀ st ∈ [refreshing true noLines false 170, refreshing false (noLines.set 24 true) false 170,
        refreshing false (noLines.set 23 true) true 170, refreshing false noLines true 170,
        refreshing false noLines true 5759, refreshing false noLines false 170],
      ((desk st).station 2).link = .attached ∧ ((desk st).station 2).dr.paused = false ∧
        ((desk st).station 2).dr.inFlight = none) ∧
    (refreshing true noLines false 170).dr.alarm = true ∧
    (refreshing false (noLines.set 24 true) false 170).dr.stale[24] = true ∧
    ((refreshing false (noLines.set 23 true) true 170).dr.stale[(23 : Fin 24).castSucc] = true ∧
      ∀ j : Fin 24, j < 23 → (refreshing false (noLines.set 23 true) true 170).dr.stale[j.castSucc] = false) ∧
    (∀ i : Fin 24, (refreshing false noLines true 170).dr.stale[i.castSucc] = false) ∧
    (refreshing false noLines true 170).sheet.lineOfRow (170 / 80) = some 2 ∧
    (refreshing false noLines true 5759).sheet.lineOfRow (5759 / 80) = none ∧
    (refreshing false noLines false 170).dr.cursorStale = false := by decide +kernel

theorem witness_StepKeepsSheetsSound : (desk order).SheetsSound ∧ step (desk order) = .next (after (step (desk order))) :=
  ⟨by decide +kernel, rfl⟩

theorem witness_StepKeepsStationsAndReleasesSound : handing.StationsSound ∧ handing.ReleasesSound ∧
    step handing = .next (after (step handing)) := ⟨by decide +kernel, by decide +kernel, rfl⟩

theorem witness_StepKeepsStoreSound : closing.store.Sound ∧ step closing = .next (after (step closing)) :=
  ⟨⟨by decide +kernel, by decide +kernel, by decide +kernel, by decide +kernel, by decide +kernel⟩, rfl⟩

theorem witness_StepKeepsLineAndKeyMapsSound : handing.KeyMapsSound ∧ handing.LineSound ∧
    step handing = .next (after (step handing)) := ⟨by decide +kernel, by decide +kernel, rfl⟩

end Sys2Proof.Tests
end

section
/-! SUPPORT. A WRITE whose stream passes phase 1 and whose completion flags are all clear, the ATB, TEXT and VIEWB
directives, and the band (R9, R10, R46, R52, R56, R57, R63). -/

namespace Sys2Proof.Machine

/-! ### The band (R10) -/

theorem Sheet.bandField_of_inside {sh : Sheet} {b : Band} {i j : Nat} (hb : sh.band = some b) (hi : i < b.items)
    (hj : j < b.perItem) : sh.bandField i j = some (b.firstField + i * b.perItem + j) := by
  simp [Sheet.bandField, hb, hi, hj]

/-- A pair outside the band, and any pair when there is no band, is no band field. -/
theorem Sheet.bandField_of_outside {sh : Sheet} {i j : Nat} (h : ∀ b ∈ sh.band, b.items ≤ i ∨ b.perItem ≤ j) :
    sh.bandField i j = none := by
  cases hb : sh.band with
  | none => simp [Sheet.bandField, hb]
  | some b =>
    have := h b hb
    simp [Sheet.bandField, hb]
    omega

theorem Sheet.bandRow_of_inside {sh : Sheet} {b : Band} {i : Nat} (hb : sh.band = some b) (hi : i < b.items) :
    sh.bandRow i = some (b.firstRow + i * b.height) := by
  simp [Sheet.bandRow, hb, hi]

/-- An item outside the band, and any item when there is no band, has no row. -/
theorem Sheet.bandRow_of_outside {sh : Sheet} {i : Nat} (h : ∀ b ∈ sh.band, b.items ≤ i) :
    sh.bandRow i = none := by
  cases hb : sh.band with
  | none => simp [Sheet.bandRow, hb]
  | some b => simpa [Sheet.bandRow, hb] using h b hb

/-! ### Marks of the display refresh unit (R36) -/

/-- Marking lines changes nothing of the display refresh unit but the stale marks. -/
theorem Station.markLines_dr_eq (st : Station) (p : Nat → Bool) :
    (st.markLines p).dr = { st.dr with stale := (st.markLines p).dr.stale } := by
  unfold Station.markLines; split <;> rfl

/-- Marking the cursor changes nothing of the display refresh unit but the cursor-stale flag. -/
theorem Station.markCursor_dr_eq (st : Station) :
    st.markCursor.dr = { st.dr with cursorStale := st.markCursor.dr.cursorStale } := by
  unfold Station.markCursor; split <;> rfl

/-- Cells written change of the display refresh unit only the stale marks. -/
theorem Station.putCells_dr_eq (st : Station) (a : Nat) (chars : List Byte) :
    (st.putCells a chars).dr = { st.dr with stale := (st.putCells a chars).dr.stale } :=
  Station.markLines_dr_eq { st with sheet := st.sheet.putCells a chars } _

/-- A view top set changes of the display refresh unit only the stale marks and the cursor-stale flag. -/
theorem Station.setTop_dr_eq (st : Station) (t : Nat) :
    (st.setTop t).dr =
      { st.dr with stale := (st.setTop t).dr.stale, cursorStale := (st.setTop t).dr.cursorStale } := by
  unfold Station.setTop
  split
  · rfl
  · rw [Station.markCursor_dr_eq, Station.markLines_dr_eq]

/-- One character written is read back at its cell, and every other cell reads as before. -/
theorem Sheet.cell_putCells_one {sh : Sheet} (h : Memory.wf cellDefault sh.cells) (a b : Nat) (c : Byte) :
    (sh.putCells a [c]).cell b = if b = a then c else sh.cell b := by
  split
  case isTrue hb =>
    subst hb
    exact Sheet.cell_putCells_inside sh b 0 [c] h Nat.one_pos
  case isFalse hb => exact Sheet.cell_putCells_outside sh a b [c] (by rw [List.length_singleton]; omega)

/-! ### Phase 1 (R48) -/

/-- Phase 1 passes a whole directive that is no FORM and goes on behind it. -/
theorem walkStream_found {busy : Bool} {fuel offset : Nat} {code : Byte} {bytes rest : List Byte} {d : Directive}
    {ds : List (Nat × Directive)} (hp : parseDirective code bytes = .found d rest) (hd : d.isForm = false)
    (hr : walkStream busy fuel (offset + 1 + (bytes.length - rest.length)) rest = .ok ds) :
    walkStream busy (fuel + 1) offset (code :: bytes) = .ok ((offset, d) :: ds) := by
  simp [walkStream, hp, hd, hr]

/-- The stream of an ATB and a TEXT of one character. -/
theorem walkStream_pointBand_text (busy : Bool) (i j c : Byte) :
    walkStream busy 6 1 [0x05#8, i, j, 0x06#8, 0x01#8, c] =
      .ok [(1, .pointBand i.toNat j.toNat), (4, .text [c])] :=
  walkStream_found rfl rfl (walkStream_found rfl rfl rfl)

/-- The stream of a VIEWB. -/
theorem walkStream_viewBand (busy : Bool) (i : Byte) :
    walkStream busy 2 1 [0x0E#8, i] = .ok [(1, .viewBand i.toNat)] :=
  walkStream_found rfl rfl rfl

/-! ### Phase 2 (R52) -/

/-- Phase 2 ends at the first directive when it fails. -/
theorem applyStream_error {store : Store} {w : Writer} {st : Station} {d : Directive} {e : DirFault}
    (h : applyDirective store w st d = .error e) (offset : Nat) (ds : List (Nat × Directive)) :
    applyStream store ((offset, d) :: ds) w st = (some (e, offset), w, st) := by
  simp [applyStream, h]

/-- Phase 2 goes on with what a directive that passes its checks leaves. -/
theorem applyStream_ok {store : Store} {w w' : Writer} {st st' : Station} {d : Directive}
    (h : applyDirective store w st d = .ok (w', st')) (offset : Nat) (ds : List (Nat × Directive)) :
    applyStream store ((offset, d) :: ds) w st = applyStream store ds w' st' := by
  simp [applyStream, h]

/-- R56: ATB outside the band. -/
theorem applyDirective_pointBand_outside (store : Store) (w : Writer) {st : Station} {i j : Nat}
    (h : st.sheet.bandField i j = none) : applyDirective store w st (.pointBand i j) = .error .bandRange := by
  simp [applyDirective, h]

/-- R56: ATB to a number that no field carries. -/
theorem applyDirective_pointBand_missing (store : Store) (w : Writer) {st : Station} {i j k : Nat}
    (h : st.sheet.bandField i j = some k) (hk : st.sheet.fieldNumbered k = none) :
    applyDirective store w st (.pointBand i j) = .error .noSuchField := by
  simp [applyDirective, h, hk]

/-- R56: ATB to a field of the table. -/
theorem applyDirective_pointBand_found (store : Store) (w : Writer) {st : Station} {i j k : Nat} {f : Field}
    (h : st.sheet.bandField i j = some k) (hk : st.sheet.fieldNumbered k = some f) :
    applyDirective store w st (.pointBand i j) = .ok ({ w with pointer := f.start }, st) := by
  simp [applyDirective, h, hk]

/-- R57: a TEXT of one printable character inside the sheet. -/
theorem applyDirective_text_one (store : Store) {st : Station} {a : Nat} {c : Byte} (ha : a < st.sheet.size)
    (hc : printable c = true) :
    applyDirective store { pointer := a, truncated := 0, substituted := 0 } st (.text [c]) =
      .ok ({ pointer := a + 1, truncated := 0, substituted := 0 }, st.putCells a [c]) := by
  have hfits : [c].take (st.sheet.size - a) = [c] := List.take_of_length_le (by rw [List.length_singleton]; omega)
  simp [applyDirective, writeText, hfits, addCount, substitutions, toPrintable, hc]

/-- R63: VIEWB outside the band. -/
theorem applyDirective_viewBand_outside (store : Store) (w : Writer) {st : Station} {i : Nat}
    (h : st.sheet.bandRow i = none) : applyDirective store w st (.viewBand i) = .error .bandRange := by
  simp [applyDirective, h]

/-- R63: VIEWB to an item of the band. -/
theorem applyDirective_viewBand_inside (store : Store) (w : Writer) {st : Station} {i r : Nat}
    (h : st.sheet.bandRow i = some r) :
    applyDirective store w st (.viewBand i) = .ok (w, st.setTop (st.sheet.clampTop r)) := by
  simp [applyDirective, h]

/-! ### A WRITE with every completion flag clear (R46, R67, R70) -/

theorem Station.Writable.releasePending {st : Station} (h : st.Writable) : st.releasePending = false := by
  obtain ⟨-, hreleased, hroom⟩ := h
  simp [Station.releasePending, hreleased, hroom]

/-- R50, R51: at a station with no release pending, a WRITE begins by clearing the edited-field register. -/
theorem State.beforeDirectives_writable {s : State} {n : StationIx} (h : (s.station n).Writable) :
    s.beforeDirectives n = s.setStation n ((s.station n).setEdited none) := by
  simp [State.beforeDirectives, h.releasePending, State.onStation_eq]

@[simp] theorem State.flagsToLock_zero (s : State) (n : StationIx) : s.flagsToLock n 0x00#8 = s := by
  have hlock : (s.station n).lockStep 0x00#8 = s.station n := by unfold Station.lockStep; split <;> rfl
  simp [State.flagsToLock, State.onStation_eq, flagUntouch, hlock]

@[simp] theorem State.applyFlags_zero (s : State) (n : StationIx) : s.applyFlags n 0x00#8 = s := by
  simp [State.applyFlags, Station.replaysOn, flagUnlock, flagAlarm]

/-- R46: a stream that passes phase 1 reaches phase 2 at a station with no release pending. -/
theorem handleWrite_passed {s : State} {n : StationIx} (h : (s.station n).Writable) (flags : Byte)
    {stream : List Byte} {ds : List (Nat × Directive)}
    (hwalk : walkStream s.store.op.isSome stream.length 1 stream = .ok ds) :
    handleWrite n (flags :: stream) s = s.applyWrite n flags ds := by
  simp [handleWrite, h.1, h.releasePending, hwalk]

/-- What a WRITE frame does whose stream passes phase 1. -/
theorem exec_write_passed {s : State} {n : StationIx} (hs : s.Serving) (h : (s.station n).Writable) (flags : Byte)
    {stream : List Byte} {ds : List (Nat × Directive)} (hlen : (flags :: stream).length ≤ 2048)
    (hwalk : walkStream s.store.op.isSome stream.length 1 stream = .ok ds) :
    exec (.write (stationByte n) (flags :: stream)) s =
      .next ((s.byteSeen.hunt.applyWrite n flags ds).2.respond (stationByte n)
        (s.byteSeen.hunt.applyWrite n flags ds).1) := by
  have hhandle : s.byteSeen.hunt.handle .write (stationByte n) (flags :: stream) =
      s.byteSeen.hunt.applyWrite n flags ds := by
    rw [State.handle, toStation_stationByte]
    exact handleWrite_passed (s := s.byteSeen.hunt) h flags hwalk
  have := exec_serving hs .write (stationByte n) hlen
  rwa [hhandle] at this

/-- R52: phase 2 ends with a directive that fails; what the directives before it did stays. -/
theorem State.applyWrite_fails {s : State} {n : StationIx} (h : (s.station n).Writable) (flags : Byte)
    {ds : List (Nat × Directive)} {e : DirFault} {offset : Nat} {w : Writer} {st : Station}
    (happly : applyStream s.store ds ⟨0, 0, 0⟩ ((s.station n).setEdited none) = (some (e, offset), w, st)) :
    s.applyWrite n flags ds = (refuse .directiveError e.code offset, s.setStation n st) := by
  simp [State.applyWrite, State.beforeDirectives_writable h, happly]

/-- R70: when every directive passes and every flag is clear, the station is left as the directives left it. -/
theorem State.applyWrite_done {s : State} {n : StationIx} (h : (s.station n).Writable)
    {ds : List (Nat × Directive)} {w : Writer} {st : Station}
    (happly : applyStream s.store ds ⟨0, 0, 0⟩ ((s.station n).setEdited none) = (none, w, st)) :
    s.applyWrite n 0x00#8 ds = (accept (writeAnswer st w), s.setStation n st) := by
  simp [State.applyWrite, State.beforeDirectives_writable h, happly]

/-- R52: a directive that fails ends the frame with DIRECTIVE ERROR. -/
theorem exec_write_fails {s : State} {n : StationIx} (hs : s.Serving) (h : (s.station n).Writable) (flags : Byte)
    {stream : List Byte} {ds : List (Nat × Directive)} {e : DirFault} {offset : Nat} {w : Writer} {st : Station}
    (hlen : (flags :: stream).length ≤ 2048)
    (hwalk : walkStream s.store.op.isSome stream.length 1 stream = .ok ds)
    (happly : applyStream s.store ds ⟨0, 0, 0⟩ ((s.station n).setEdited none) = (some (e, offset), w, st)) :
    exec (.write (stationByte n) (flags :: stream)) s =
      .next ((s.setStation n st).withRefusal (stationByte n) 0x07#8 (byte1 e.code) offset) := by
  rw [exec_write_passed hs h flags hlen hwalk, State.applyWrite_fails (s := s.byteSeen.hunt) h flags happly]
  exact congrArg _ (respond_refuse (s.setStation n st) _ .directiveError e.code offset)

/-- R70: with every flag clear, a WRITE whose directives all pass is answered ACCEPT. -/
theorem exec_write_done {s : State} {n : StationIx} (hs : s.Serving) (h : (s.station n).Writable)
    {stream : List Byte} {ds : List (Nat × Directive)} {w : Writer} {st : Station}
    (hlen : (0x00#8 :: stream).length ≤ 2048)
    (hwalk : walkStream s.store.op.isSome stream.length 1 stream = .ok ds)
    (happly : applyStream s.store ds ⟨0, 0, 0⟩ ((s.station n).setEdited none) = (none, w, st)) :
    exec (.write (stationByte n) (0x00#8 :: stream)) s =
      .next ((s.setStation n st).withAnswer (stationByte n) .accept (writeAnswer st w)) := by
  rw [exec_write_passed hs h 0x00#8 hlen hwalk, State.applyWrite_done (s := s.byteSeen.hunt) h happly]
  exact congrArg _ (respond_accept (s.setStation n st) _ _)

/-- R70: the ACCEPT of a WRITE that truncated and substituted nothing and left the link and the input state. -/
theorem writeAnswer_uncounted {st st' : Station} (hlink : st'.link = st.link) (hinput : st'.input = st.input)
    (pointer : Nat) : writeAnswer st' ⟨pointer, 0, 0⟩ =
      [st.link.code, st.input.code, 0x00#8, 0x00#8, 0x00#8, 0x00#8] := by
  simp [writeAnswer, hlink, hinput, bytes2]

/-! ### The frames of one ATB with a TEXT, and of one VIEWB -/

section
variable {s : State} {n : StationIx} (hs : s.Serving) (h : (s.station n).Writable) (i j c : Byte)
include hs h

/-- An ATB that fails ends its frame, with only the edited-field register cleared. -/
theorem exec_pointBand_text_fails {e : DirFault}
    (he : applyDirective s.store ⟨0, 0, 0⟩ ((s.station n).setEdited none) (.pointBand i.toNat j.toNat) = .error e) :
    exec (.write (stationByte n) [0x00#8, 0x05#8, i, j, 0x06#8, 0x01#8, c]) s =
      .next ((s.setStation n ((s.station n).setEdited none)).withRefusal (stationByte n) 0x07#8 (byte1 e.code) 1) :=
  exec_write_fails hs h 0x00#8 (by simp) (walkStream_pointBand_text _ i j c) (applyStream_error he 1 _)

/-- A VIEWB that fails ends its frame, with only the edited-field register cleared. -/
theorem exec_viewBand_fails {e : DirFault}
    (he : applyDirective s.store ⟨0, 0, 0⟩ ((s.station n).setEdited none) (.viewBand i.toNat) = .error e) :
    exec (.write (stationByte n) [0x00#8, 0x0E#8, i]) s =
      .next ((s.setStation n ((s.station n).setEdited none)).withRefusal (stationByte n) 0x07#8 (byte1 e.code) 1) :=
  exec_write_fails hs h 0x00#8 (by simp) (walkStream_viewBand _ i) (applyStream_error he 1 _)

/-- An ATB to a field of the table and a TEXT of one character write it at the field's start. -/
theorem exec_pointBand_text_found {k : Nat} {f : Field} (hc : printable c = true)
    (hk : (s.station n).sheet.bandField i.toNat j.toNat = some k)
    (hf : (s.station n).sheet.fieldNumbered k = some f) (hsize : f.start < (s.station n).sheet.size) :
    exec (.write (stationByte n) [0x00#8, 0x05#8, i, j, 0x06#8, 0x01#8, c]) s =
      .next ((s.setStation n (((s.station n).setEdited none).putCells f.start [c])).withAnswer (stationByte n) .accept
        [(s.station n).link.code, (s.station n).input.code, 0x00#8, 0x00#8, 0x00#8, 0x00#8]) := by
  have happly : applyStream s.store [(1, .pointBand i.toNat j.toNat), (4, .text [c])] ⟨0, 0, 0⟩
      ((s.station n).setEdited none) =
        (none, ⟨f.start + 1, 0, 0⟩, ((s.station n).setEdited none).putCells f.start [c]) := by
    rw [applyStream_ok (applyDirective_pointBand_found (st := (s.station n).setEdited none) _ _ hk hf),
      applyStream_ok (applyDirective_text_one (st := (s.station n).setEdited none) _ hsize hc)]
    rfl
  rw [exec_write_done hs h (by simp) (walkStream_pointBand_text _ i j c) happly,
    writeAnswer_uncounted (st := s.station n) (by simp) (by simp)]

/-- A VIEWB to an item of the band sets the view top to its row, brought into the range of R19. -/
theorem exec_viewBand_inside {r : Nat} (hr : (s.station n).sheet.bandRow i.toNat = some r) :
    exec (.write (stationByte n) [0x00#8, 0x0E#8, i]) s =
      .next ((s.setStation n (((s.station n).setEdited none).setTop ((s.station n).sheet.clampTop r))).withAnswer
        (stationByte n) .accept
        [(s.station n).link.code, (s.station n).input.code, 0x00#8, 0x00#8, 0x00#8, 0x00#8]) := by
  have happly : applyStream s.store [(1, .viewBand i.toNat)] ⟨0, 0, 0⟩ ((s.station n).setEdited none) =
      (none, ⟨0, 0, 0⟩, ((s.station n).setEdited none).setTop ((s.station n).sheet.clampTop r)) :=
    applyStream_ok (applyDirective_viewBand_inside (st := (s.station n).setEdited none) _ _ hr) 1 []
  rw [exec_write_done hs h (by simp) (walkStream_viewBand _ i) happly,
    writeAnswer_uncounted (st := s.station n) (by simp) (by simp)]

end

/-! ### ATB and VIEWB translate through the band (R10) -/

/-- Settles O42: the case split of R10, inside the band or outside it, and the lookup of the field's number. The
directives see the station with its edited-field register cleared, whose band, fields and cells are those of `sh`. -/
theorem bandTranslatesInstances : Obligations.BandTranslatesInstances := by
  intro s n i j c hs hsound hw hc sh atb viewb refused accepted
  obtain ⟨-, -, -, -, ⟨hcells, -⟩, hfields, -, -⟩ := hsound n
  have atb_outside (hb : ∀ b ∈ sh.band, b.items ≤ i.toNat ∨ b.perItem ≤ j.toNat) : refused atb 0x0A#8 :=
    exec_pointBand_text_fails hs hw i j c
      (applyDirective_pointBand_outside _ _ (Sheet.bandField_of_outside (sh := sh) hb))
  have viewb_outside (hb : ∀ b ∈ sh.band, b.items ≤ i.toNat) : refused viewb 0x0A#8 :=
    exec_viewBand_fails hs hw i (applyDirective_viewBand_outside _ _ (Sheet.bandRow_of_outside (sh := sh) hb))
  refine ⟨fun hnone => ⟨atb_outside (by simp [hnone]), viewb_outside (by simp [hnone])⟩,
    fun b hb => ⟨?_, ?_, ?_, ?_⟩⟩
  · exact fun hout => atb_outside (by simpa [hb] using hout)
  · intro hi hj
    have hk := Sheet.bandField_of_inside hb hi hj
    refine ⟨fun hmissing => ?_, fun f hf hnumber => ?_⟩
    · exact exec_pointBand_text_fails hs hw i j c
        (applyDirective_pointBand_missing _ _ hk (Sheet.fieldNumbered_none (sh := sh) hmissing))
    · have hfound := Sheet.fieldNumbered_of_mem hfields hf
      rw [hnumber] at hfound
      obtain ⟨-, ⟨hlength, -⟩, hend⟩ := hfields.1 f hf
      refine ⟨_, exec_pointBand_text_found hs hw i j c hc hk hfound (by omega), ?_, fun a => ?_⟩
      · rw [Station.putCells_eq, Station.putCells_dr_eq]
        rfl
      · rw [Station.putCells_eq]
        exact Sheet.cell_putCells_one hcells f.start a c
  · exact fun hout => viewb_outside (by simpa [hb] using hout)
  · intro hi
    refine ⟨_, exec_viewBand_inside hs hw i (Sheet.bandRow_of_inside hb hi), ?_⟩
    rw [Station.setTop_eq, Station.setTop_dr_eq]
    rfl

end Sys2Proof.Machine
end

section
/-! SUPPORT. Which record the release queue hands to a POLL, and what a POLL answers, to station 0 and to a station 1..12
alike (R137). The station polled is an `Option StationIx`, as `handlePoll` takes it: none is station 0. -/

namespace Sys2Proof.Machine

/-! ### The record handed over (R137) -/

theorem ReleaseQueue.oldest_of_empty {q : ReleaseQueue} (h : q.queue = []) : q.oldest = none := by
  simp [ReleaseQueue.oldest, h]

/-- An URGENT record goes before every record that is not, wherever it stands in the queue. -/
theorem ReleaseQueue.oldest_of_urgent {q : ReleaseQueue} {before after : List Record} {r : Record}
    (hq : q.queue = before ++ r :: after) (hr : r.priority = .urgent) (hbefore : ∀ p ∈ before, p.priority ≠ .urgent) :
    q.oldest = some r := by
  have hfind : q.queue.find? (fun p => p.priority == .urgent) = some r :=
    List.find?_eq_some_iff_append.mpr ⟨by simp [hr], before, after, hq, by simpa using hbefore⟩
  simp [ReleaseQueue.oldest, hfind]

theorem ReleaseQueue.oldest_of_no_urgent {q : ReleaseQueue} (h : ∀ p ∈ q.queue, p.priority ≠ .urgent) :
    q.oldest = q.queue.head? := by
  have hfind : q.queue.find? (fun p => p.priority == .urgent) = none := List.find?_eq_none.mpr (by simpa using h)
  simp [ReleaseQueue.oldest, hfind]

theorem ReleaseQueue.recordOf_eq_none {q : ReleaseQueue} {n : StationIx} (h : ∀ p ∈ q.queue, p.station ≠ n) :
    q.recordOf n = none :=
  List.find?_eq_none.mpr (by simpa using h)

theorem ReleaseQueue.recordOf_eq_some {q : ReleaseQueue} {n : StationIx} {before after : List Record} {r : Record}
    (hq : q.queue = before ++ r :: after) (hr : r.station = n) (hbefore : ∀ p ∈ before, p.station ≠ n) :
    q.recordOf n = some r :=
  List.find?_eq_some_iff_append.mpr ⟨by simp [hr], before, after, hq, by simpa using hbefore⟩

/-! ### The handling of a POLL -/

/-- A POLL to station 0 or to a station 1..12 reaches the handling for it. -/
theorem State.handle_poll (s : State) (target : Option StationIx) (payload : List Byte) :
    s.handle .poll (target.elim 0x00#8 stationByte) payload = handlePoll target payload s := by
  cases target with
  | none => rfl
  | some n => simp [State.handle, stationByte_ne_zero]

/-- A POLL with no payload chooses a record and leaves the state. -/
theorem handlePoll_nil (target : Option StationIx) (s : State) :
    handlePoll target [] s = (pollReply (target.elim s.rq.oldest s.rq.recordOf), s) := by
  cases target <;> rfl

theorem handlePoll_of_payload (target : Option StationIx) {payload : List Byte} (h : payload ≠ []) (s : State) :
    handlePoll target payload s = (refuse .badLength 0 0, s) :=
  if_neg h

/-- The answer that hands over a record carries the record's station, not the one polled. -/
theorem respond_releaseReply (t : State) (st : Byte) (r : Record) :
    (t.byteSeen.hunt).respond st (releaseReply r) = t.withAnswer (stationByte r.station) .release r.bytes :=
  rfl

/-! ### What a POLL frame does -/

section
variable {s : State} (hs : s.Serving) (target : Option StationIx)
include hs

theorem exec_poll_eq {payload : List Byte} (hlen : payload.length ≤ 2048) :
    exec (.poll (target.elim 0x00#8 stationByte) payload) s =
      .next ((handlePoll target payload s.byteSeen.hunt).2.respond (target.elim 0x00#8 stationByte)
        (handlePoll target payload s.byteSeen.hunt).1) := by
  rw [← State.handle_poll]
  exact exec_serving hs .poll _ hlen

theorem exec_poll_record {r : Record} (hr : target.elim s.rq.oldest s.rq.recordOf = some r) :
    exec (.poll (target.elim 0x00#8 stationByte) []) s =
      .next (s.withAnswer (stationByte r.station) .release r.bytes) := by
  have hhandle : handlePoll target [] s.byteSeen.hunt = (releaseReply r, s.byteSeen.hunt) :=
    (handlePoll_nil target _).trans (congrArg (fun c => (pollReply c, s.byteSeen.hunt)) hr)
  rw [exec_poll_eq hs target (Nat.zero_le _), hhandle, respond_releaseReply]

theorem exec_poll_nothing (hr : target.elim s.rq.oldest s.rq.recordOf = none) :
    exec (.poll (target.elim 0x00#8 stationByte) []) s =
      .next (s.withAnswer (target.elim 0x00#8 stationByte) .nothing []) := by
  have hhandle : handlePoll target [] s.byteSeen.hunt = (reply .nothing [], s.byteSeen.hunt) :=
    (handlePoll_nil target _).trans (congrArg (fun c => (pollReply c, s.byteSeen.hunt)) hr)
  rw [exec_poll_eq hs target (Nat.zero_le _), hhandle, respond_reply _ _ _ _ (by decide)]

theorem exec_poll_badLength {payload : List Byte} (hne : payload ≠ []) (hlen : payload.length ≤ 2048) :
    exec (.poll (target.elim 0x00#8 stationByte) payload) s =
      .next (s.withRefusal (target.elim 0x00#8 stationByte) 0x03#8 0x00#8 0) := by
  rw [exec_poll_eq hs target hlen, handlePoll_of_payload target hne, respond_refuse]
  rfl

end

/-! ### POLL hands over a record and leaves it queued (R137) -/

/-- Settles O16: each clause is what a POLL answers with the record that clause's queue chooses. The record of a station
polled by number carries that station's own byte. -/
theorem pollHandsOverRecord : Obligations.PollHandsOverRecord := by
  intro s hs
  refine ⟨fun hempty => ?_, fun before r after hq hr hbefore => ?_, fun r rest hq hnormal => ?_, fun n =>
    ⟨fun hnone => ?_, fun before r after hq hr hbefore => ?_, fun payload hne hlen => ⟨?_, ?_⟩⟩⟩
  · exact exec_poll_nothing hs none (ReleaseQueue.oldest_of_empty hempty)
  · exact exec_poll_record hs none (ReleaseQueue.oldest_of_urgent hq hr hbefore)
  · have hhead : s.rq.oldest = some r := by rw [ReleaseQueue.oldest_of_no_urgent hnormal, hq, List.head?_cons]
    exact exec_poll_record hs none hhead
  · exact exec_poll_nothing hs (some n) (ReleaseQueue.recordOf_eq_none hnone)
  · subst hr
    exact exec_poll_record hs (some r.station) (ReleaseQueue.recordOf_eq_some hq rfl hbefore)
  · exact exec_poll_badLength hs (some n) hne hlen
  · exact exec_poll_badLength hs none hne hlen

end Sys2Proof.Machine
end

section
/-! SUPPORT. The management requests that report the state, and the attention register (R181, R182, R187 to R189,
R191): what a request to station 0 does once its handling is known, and the octets read bit by bit. -/

namespace Sys2Proof.Machine

/-! ### A request to station 0 whose handling is known (R171, R174, R177) -/

/-- R174: STATUS is handled in either phase, where every other kind is refused while STARTING. -/
theorem State.answerFrame_status (s : State) (st : Byte) (p : List Byte) :
    s.answerFrame DownKind.status.code st p = (s.handle .status st p).2.respond st (s.handle .status st p).1 := by
  simp only [State.answerFrame, State.dispatch, ne_eq, not_true_eq_false, and_false, if_false, DownKind.ofByte_code]

section
variable {s : State} (hs : s.Serving) (k : DownKind) {payload : List Byte} (hlen : payload.length ≤ 2048)
include hs hlen

theorem exec_informs {info : List Byte}
    (h : s.byteSeen.hunt.handle k 0x00#8 payload = (reply .info info, s.byteSeen.hunt)) :
    exec (k.command 0x00#8 payload) s = .next (s.withAnswer 0x00#8 .info info) := by
  rw [exec_serving hs k _ hlen, h, respond_reply _ _ _ _ (by decide)]

theorem exec_refuses {reason : Reason} {subcode detail : Nat}
    (h : s.byteSeen.hunt.handle k 0x00#8 payload = (refuse reason subcode detail, s.byteSeen.hunt)) :
    exec (k.command 0x00#8 payload) s = .next (s.withRefusal 0x00#8 reason.code (byte1 subcode) detail) := by
  rw [exec_serving hs k _ hlen, h, respond_refuse]

/-- The answer is composed in the state `t` that the handling leaves (R171). -/
theorem exec_accepts {t : State} {info : List Byte}
    (h : s.byteSeen.hunt.handle k 0x00#8 payload = (accept info, t.byteSeen.hunt)) :
    exec (k.command 0x00#8 payload) s = .next (t.withAnswer 0x00#8 .accept info) := by
  rw [exec_serving hs k _ hlen, h, respond_accept]

end

/-- R181: STATUS is answered in either phase. -/
theorem exec_status {s : State} (hs : s.hostDriverEnabled = false) :
    exec (.status 0x00#8 []) s = .next (s.withAnswer 0x00#8 .info s.statusInfo) := by
  have hhandle : s.byteSeen.hunt.handle .status 0x00#8 [] = (reply .info s.statusInfo, s.byteSeen.hunt) := rfl
  have hcommand : exec (.status 0x00#8 []) s = .next (s.takeFrame DownKind.status.code 0x00#8 []) :=
    exec_command .status 0x00#8 [] s
  rw [hcommand, State.takeFrame_ready hs _ _ (Nat.zero_le _), State.answerFrame_status, hhandle,
    respond_reply _ _ _ _ (by decide)]

/-! ### The handlings (R182, R187) -/

/-- R182: a STATION READ of a station 1..12. -/
theorem State.handle_stationRead (s : State) (n : StationIx) :
    s.handle .stationRead 0x00#8 [stationByte n] = (reply .info (s.station n).info, s) := by
  simp [State.handle, handleStationRead]

/-- R182: a STATION READ of a number outside 1..12. -/
theorem State.handle_stationRead_outside (s : State) {k : Byte} (h : k.toNat = 0 ∨ 12 < k.toNat) :
    s.handle .stationRead 0x00#8 [k] = (refuse .badParameter 0 k.toNat, s) := by
  simp [State.handle, handleStationRead, stationOf_none (b := k) (by omega)]

/-- R187: an ATTENTION CLEAR of a station 0..12. -/
theorem State.handle_attentionClear (s : State) {i : Fin 13} {k : Byte} (h : i.1 = k.toNat) (octet : Byte) :
    s.handle .attentionClear 0x00#8 [k, octet] = (accept [], s.clearCauses i octet) := by
  have hk : k.toNat < 13 := by omega
  have hi : (⟨k.toNat, hk⟩ : Fin 13) = i := Fin.ext h.symm
  simp [State.handle, handleAttentionClear, hk, hi]

/-- R187: an ATTENTION CLEAR of a station above 12. -/
theorem State.handle_attentionClear_outside (s : State) {k : Byte} (h : 12 < k.toNat) (octet : Byte) :
    s.handle .attentionClear 0x00#8 [k, octet] = (refuse .badParameter 0 k.toNat, s) := by
  have hk : ¬ k.toNat < 13 := by omega
  simp [State.handle, handleAttentionClear, hk]

/-! ### The protect flags (R191) -/

/-- A sum of powers of two, one for each set flag, is the number with those flags as its bits. -/
theorem sum_two_pow_eq_ofBits {n : Nat} (f : Fin n → Bool) :
    ((List.finRange n).map fun g => if f g then 2 ^ g.1 else 0).sum = Nat.ofBits f := by
  induction n with
  | zero => rfl
  | succ n ih =>
    have hdouble (g : Fin n) :
        (if f g.succ then 2 ^ g.succ.1 else 0) = 2 * if (f ∘ Fin.succ) g then 2 ^ g.1 else 0 := by
      simp [Nat.pow_succ']
    have hfirst : (if f 0 then 2 ^ (0 : Fin (n + 1)).1 else 0) = (f 0).toNat := by cases f 0 <;> rfl
    rw [List.finRange_succ, List.map_cons, List.map_map, List.sum_cons, Nat.ofBits_succ, ← ih, ← List.sum_map_mul_left,
      hfirst, Nat.add_comm]
    simp only [Function.comp_def, hdouble]

theorem Store.protectWord_eq_ofBits (st : Store) : st.protectWord = Nat.ofBits fun g : Fin 16 => st.protect[g] :=
  sum_two_pow_eq_ofBits _

theorem Store.protectWord_toNat (st : Store) : (BitVec.ofNat 16 st.protectWord).toNat = st.protectWord := by
  rw [BitVec.toNat_ofNat, Store.protectWord_eq_ofBits]
  exact Nat.mod_eq_of_lt (Nat.ofBits_lt_two_pow _)

/-- Bit g of the flags of a DIRECTORY READ is the protect flag of group g. -/
theorem Store.protectWord_getLsbD (st : Store) (g : Fin 16) :
    (BitVec.ofNat 16 st.protectWord).getLsbD g.1 = st.protect[g] := by
  rw [BitVec.getLsbD, Store.protectWord_toNat, Store.protectWord_eq_ofBits, Nat.testBit_ofBits_lt _ _ g.2]

/-! ### Tables read in order (R187, R189) -/

theorem toList_eq_map_finRange {α : Type} {n : Nat} (v : Vector α n) :
    v.toList = (List.finRange n).map fun i => v[i] := by
  rw [← List.ofFn_eq_map, ← Vector.toList_ofFn]
  simp

theorem State.countersInfo_eq (s : State) :
    s.countersInfo = bytes2 s.checkFails.toNat ++ bytes2 s.framingErrors.toNat ++ bytes2 s.refusals.toNat ++
      (List.finRange 12).flatMap fun n => (s.station n).counters := by
  rw [State.countersInfo, toList_eq_map_finRange, List.flatMap_map]
  rfl

theorem State.attentionInfo_eq (s : State) :
    s.attentionInfo = ((List.finRange 13).map fun i => s.causes[i]) ++ [s.stationMask, s.ctlMask] := by
  rw [State.attentionInfo, toList_eq_map_finRange]

/-! ### The positions that name a cause (R187, R188) -/

/-- The octet with its lowest n positions set. -/
theorem getLsbD_low_ones {n : Nat} (hn : n ≤ 8) (b : Nat) :
    (BitVec.ofNat 8 (2 ^ n - 1)).getLsbD b = decide (b < n) := by
  rw [BitVec.getLsbD_ofNat, Nat.testBit_two_pow_sub_one, ← Bool.decide_and]
  exact decide_eq_decide.mpr (by omega)

theorem stationCauseBits_getLsbD (b : Nat) : stationCauseBits.getLsbD b = decide (b < 4) :=
  getLsbD_low_ones (n := 4) (by decide) b

theorem ctlCauseBits_getLsbD (b : Nat) : ctlCauseBits.getLsbD b = decide (b < 3) :=
  getLsbD_low_ones (n := 3) (by decide) b

theorem causeBits_getLsbD (i : Fin 13) (b : Nat) :
    (causeBits i).getLsbD b = decide (b < if i.1 = 0 then 3 else 4) := by
  by_cases hi : i = 0
  · subst hi
    exact ctlCauseBits_getLsbD b
  · have hne : i.1 ≠ 0 := fun h => hi (Fin.ext h)
    rw [causeBits, if_neg hi, if_neg hne, stationCauseBits_getLsbD]

/-- The bits of an octet that another does not name are left. -/
theorem getLsbD_and_not (x y : Byte) (b : Nat) : (x &&& ~~~y).getLsbD b = (x.getLsbD b && !y.getLsbD b) := by
  by_cases hb : b < 8
  · simp [hb]
  · simp [BitVec.getLsbD_of_ge x b (by omega)]

/-- R187: a cause is left set when it was set and is not one the octet names. -/
theorem State.clearedCauses_getLsbD (s : State) (i : Fin 13) (octet : Byte) (b : Nat) :
    (s.causes[i] &&& ~~~(octet &&& causeBits i)).getLsbD b =
      (s.causes[i].getLsbD b && !(octet.getLsbD b && decide (b < if i.1 = 0 then 3 else 4))) := by
  rw [getLsbD_and_not, BitVec.getLsbD_and, causeBits_getLsbD]

/-! ### The statements of R181, R182, R187 to R189 and R191 -/

/-- Settles O18: each request is answered with the payload its handling reads off the state, the flags of a DIRECTORY
READ being the protect word. -/
theorem readingKindsReportState : Obligations.ReadingKindsReportState := by
  intro s hidle
  refine ⟨exec_status hidle, fun hrunning => ?_⟩
  have hs : s.Serving := ⟨hrunning, hidle⟩
  refine ⟨⟨BitVec.ofNat 16 s.store.protectWord, s.store.protectWord_getLsbD, ?_⟩, fun n => ?_, fun k hk => ?_⟩
  · rw [Store.protectWord_toNat]
    exact exec_informs hs .directoryRead (Nat.zero_le _) rfl
  · exact exec_informs hs .stationRead (by simp) (s.byteSeen.hunt.handle_stationRead n)
  · exact exec_refuses hs .stationRead (by simp) (s.byteSeen.hunt.handle_stationRead_outside hk)

/-- Settles O19: the handling reads the counters off the state and leaves it as it was. -/
theorem countersReadClearsNothing : Obligations.CountersReadClearsNothing := by
  intro s hs
  have hinforms : exec (.countersRead 0x00#8 []) s = .next (s.withAnswer 0x00#8 .info s.countersInfo) :=
    exec_informs hs .countersRead (Nat.zero_le _) rfl
  rwa [State.countersInfo_eq] at hinforms

/-- Settles O21: the causes left are those `clearCauses` leaves, read bit by bit. -/
theorem attentionReadAndClear : Obligations.AttentionReadAndClear := by
  intro s hs
  refine ⟨?_, fun k octet => ⟨fun i hi => ⟨_, s.clearedCauses_getLsbD i octet, ?_⟩, fun hk => ?_⟩⟩
  · rw [← State.attentionInfo_eq]
    exact exec_informs hs .attentionRead (Nat.zero_le _) rfl
  · exact exec_accepts (t := s.clearCauses i octet) hs .attentionClear (by simp)
      (s.byteSeen.hunt.handle_attentionClear hi octet)
  · exact exec_refuses hs .attentionClear (by simp) (s.byteSeen.hunt.handle_attentionClear_outside hk octet)

/-- Settles O22: each mask octet is replaced by the one carried, with only the positions that name a cause kept. -/
theorem attentionMaskReplacesBoth : Obligations.AttentionMaskReplacesBoth := by
  intro s a b hs
  refine ⟨_, a &&& stationCauseBits, b &&& ctlCauseBits, exec_accepts hs .attentionMask (by simp) rfl, rfl,
    fun i => ?_, fun i => ?_⟩
  · rw [BitVec.getLsbD_and, stationCauseBits_getLsbD]
  · rw [BitVec.getLsbD_and, ctlCauseBits_getLsbD]

end Sys2Proof.Machine
end

section
/-! SUPPORT. What the operations of a station engine can do to their station, each said once: a change of the sheet with
its marks, or an operator error on top of it. -/

namespace Sys2Proof.Machine

/-! ### Marks of the display refresh unit (R36, R41) -/

/-- Of the display refresh unit only the stale marks, the cursor-stale flag and the pending ALARM differ, and nothing
does while the link is not ATTACHED. -/
def Refresh.MarkedFrom (attached : Bool) (dr dr' : Refresh) : Prop :=
  dr' = { dr with stale := dr'.stale, cursorStale := dr'.cursorStale, alarm := dr'.alarm } ∧
    (attached = false → dr' = dr)

theorem Refresh.MarkedFrom.refl (attached : Bool) (dr : Refresh) : Refresh.MarkedFrom attached dr dr :=
  ⟨rfl, fun _ => rfl⟩

theorem Refresh.MarkedFrom.trans {attached : Bool} {a b c : Refresh} (h : Refresh.MarkedFrom attached a b)
    (k : Refresh.MarkedFrom attached b c) : Refresh.MarkedFrom attached a c :=
  ⟨by rw [k.1, h.1], fun ha => (k.2 ha).trans (h.2 ha)⟩

/-! ### Changes of the sheet -/

/-- A change of the sheet with its marks, and nothing else of the station. -/
def Station.Edits (st st' : Station) : Prop :=
  st' = { st with sheet := st'.sheet, dr := st'.dr } ∧ Refresh.MarkedFrom st.attached st.dr st'.dr

namespace Station.Edits

theorem refl (st : Station) : st.Edits st := ⟨rfl, .refl _ _⟩

theorem trans {a b c : Station} (h : a.Edits b) (k : b.Edits c) : a.Edits c := by
  obtain ⟨hb, hm⟩ := h
  obtain ⟨hc, km⟩ := k
  have hlink : b.attached = a.attached := by rw [hb]; rfl
  exact ⟨by rw [hc, hb], hm.trans (hlink ▸ km)⟩

/-- A replaced sheet, without marks. -/
theorem sheet (st : Station) (sh : Sheet) : st.Edits { st with sheet := sh } := ⟨rfl, .refl _ _⟩

theorem markLines (st : Station) (p : Nat → Bool) : st.Edits (st.markLines p) := by
  unfold Station.markLines
  split
  case isTrue h => exact ⟨rfl, rfl, fun ha => by simp [h] at ha⟩
  case isFalse => exact refl st

theorem markCursor (st : Station) : st.Edits st.markCursor := by
  unfold Station.markCursor
  split
  case isTrue h => exact ⟨rfl, rfl, fun ha => by simp [h] at ha⟩
  case isFalse => exact refl st

theorem requestAlarm (st : Station) : st.Edits st.requestAlarm := by
  unfold Station.requestAlarm
  split
  case isTrue h => exact ⟨rfl, rfl, fun ha => by simp [h] at ha⟩
  case isFalse => exact refl st

theorem markIndicator (st : Station) : st.Edits st.markIndicator := markLines st _

theorem putCells (st : Station) (a : Nat) (chars : List Byte) : st.Edits (st.putCells a chars) :=
  (sheet st _).trans (markLines _ _)

theorem setCursor (st : Station) (a : Nat) : st.Edits (st.setCursor a) := by
  unfold Station.setCursor
  split
  · exact refl st
  · exact (sheet st _).trans (markCursor _)

theorem setTop (st : Station) (t : Nat) : st.Edits (st.setTop t) := by
  unfold Station.setTop
  split
  · exact refl st
  · exact ((sheet st _).trans (markLines _ _)).trans (markCursor _)

theorem follow (st : Station) : st.Edits st.follow := setTop st _

theorem replaceSheet (st : Station) (sh : Sheet) : st.Edits (st.replaceSheet sh) :=
  ((sheet st _).trans (markLines _ _)).trans (markCursor _)

theorem setEdited (st : Station) (k : Option Nat) : st.Edits (st.setEdited k) := sheet st _

theorem setInsert (st : Station) (f : Bool) : st.Edits (st.setInsert f) := by
  unfold Station.setInsert
  split
  · exact refl st
  · exact (sheet st _).trans (markIndicator _)

theorem markEdited (st : Station) (f : Field) : st.Edits (st.markEdited f) := sheet st _

theorem carryOut (st : Station) (target : Nat) (top : Option Nat) : st.Edits (st.carryOut target top) :=
  (((setCursor st _).trans (markCursor _)).trans (setTop _ _)).trans (follow _)

theorem passExit (st : Station) (f : Field) : st.Edits (st.passExit f) := by
  unfold Station.passExit Station.justifyField
  split
  · exact setEdited st _
  · exact (putCells st _ _).trans (setEdited _ _)

theorem storeChar (st : Station) (f : Field) (c : Byte) : st.Edits (st.storeChar f c) :=
  (putCells st _ _).trans (markEdited _ _)

theorem deleteIn (st : Station) (f : Field) : st.Edits (st.deleteIn f) := (putCells st _ _).trans (markEdited _ _)

theorem blankFields (st : Station) (fs : List Field) : st.Edits (st.blankFields fs) := by
  induction fs generalizing st with
  | nil => exact refl st
  | cons f fs ih =>
    unfold Station.blankFields
    split
    · exact (putCells st _ _).trans (ih _)
    · exact ih st

theorem eraseInput (st : Station) : st.Edits st.eraseInput :=
  ((setEdited st _).trans (blankFields _ _)).trans (sheet _ _)

theorem placeScan (st : Station) (tu : Vector ClassRec 15) (f : Field) (sc : Scan) :
    st.Edits (st.placeScan tu f sc) := (putCells st _ _).trans (markEdited _ _)

theorem placeCursor (st : Station) (a : Nat) : st.Edits (st.placeCursor a) := (setCursor st a).trans (follow _)

theorem link {st st' : Station} (h : st.Edits st') : st'.link = st.link := by rw [h.1]
theorem input {st st' : Station} (h : st.Edits st') : st'.input = st.input := by rw [h.1]
theorem scan {st st' : Station} (h : st.Edits st') : st'.scan = st.scan := by rw [h.1]
theorem typeAhead {st st' : Station} (h : st.Edits st') : st'.typeAhead = st.typeAhead := by rw [h.1]
theorem profile {st st' : Station} (h : st.Edits st') : st'.profile = st.profile := by rw [h.1]
theorem rep {st st' : Station} (h : st.Edits st') : st'.rep = st.rep := by rw [h.1]
theorem error {st st' : Station} (h : st.Edits st') : st'.error = st.error := by rw [h.1]

end Station.Edits

/-! ### Operator errors (R96) -/

/-- A change of the sheet that ends in an operator error: HELD with an error code, no repeat and no queued action. -/
def Station.HeldFrom (st st' : Station) : Prop :=
  st' = { st with
            sheet := st'.sheet, dr := st'.dr, input := .held, error := st'.error, rep := none, typeAhead := [] } ∧
    st'.error.isSome = true ∧ Refresh.MarkedFrom st.attached st.dr st'.dr

theorem Station.enterHeld_heldFrom (st : Station) (e : OpError) : st.HeldFrom (st.enterHeld e) := by
  have h : ({ st with input := .held, error := some e, rep := none, typeAhead := [] } : Station).Edits
      (st.enterHeld e) := (Station.Edits.markIndicator _).trans (.requestAlarm _)
  exact ⟨h.1.trans (by rw [h.error]), by rw [h.error]; rfl, h.2⟩

theorem Station.Edits.trans_held {a b c : Station} (h : a.Edits b) (k : b.HeldFrom c) : a.HeldFrom c := by
  obtain ⟨hb, hm⟩ := h
  obtain ⟨hc, ke, km⟩ := k
  have hlink : b.attached = a.attached := by rw [hb]; rfl
  exact ⟨by rw [hc, hb], ke, hm.trans (hlink ▸ km)⟩

theorem Station.failCheck_heldFrom (st : Station) (f : Field) (e : OpError) : st.HeldFrom (st.failCheck f e) :=
  (Station.Edits.carryOut st _ _).trans_held (Station.enterHeld_heldFrom _ e)

theorem Station.failRelease_heldFrom (st : Station) (f : Field) (e : OpError) : st.HeldFrom (st.failRelease f e) :=
  ((Station.Edits.carryOut st _ _).trans (.setEdited _ _)).trans_held (Station.enterHeld_heldFrom _ e)

/-! ### Actions (R84) -/

/-- What an action processed in ENTRY can do to its station: change the sheet, or end in an operator error. -/
def Station.Acts (st st' : Station) : Prop := st.Edits st' ∨ st.HeldFrom st'

theorem Station.Edits.trans_acts {a b c : Station} (h : a.Edits b) (k : b.Acts c) : a.Acts c :=
  k.imp h.trans h.trans_held

theorem Station.operatorMove_acts (st : Station) (tu : Vector ClassRec 15) (target : Nat) (top : Option Nat) :
    st.Acts (st.operatorMove tu target top) := by
  rcases st.operatorMove_cases tu target top with ⟨-, h⟩ | ⟨f, -, -, h⟩ | ⟨f, e, -, -, h⟩ <;> rw [h]
  · exact .inl (.carryOut _ _ _)
  · exact .inl ((Station.Edits.passExit st f).trans (.carryOut _ _ _))
  · exact .inr (Station.failCheck_heldFrom _ _ _)

theorem Station.moveAction_acts (st : Station) (tu : Vector ClassRec 15) (m : Move) : st.Acts (st.moveAction tu m) := by
  unfold Station.moveAction
  split
  · exact Station.operatorMove_acts _ _ _ _
  · exact .inl (.refl st)

theorem Station.charAction_acts (st : Station) (tu : Vector ClassRec 15) (c : Byte) :
    st.Acts (st.charAction tu c) := by
  unfold Station.charAction
  split
  · exact .inr (Station.enterHeld_heldFrom _ _)
  · split
    · exact .inr (Station.enterHeld_heldFrom _ _)
    · exact (Station.Edits.storeChar st _ _).trans_acts (Station.operatorMove_acts _ _ _ _)

/-- Cells changed after an operator error leave the station held. -/
theorem Station.HeldFrom.trans_edits {a b c : Station} (h : a.HeldFrom b) (k : b.Edits c) : a.HeldFrom c := by
  obtain ⟨hb, he, hm⟩ := h
  obtain ⟨hc, km⟩ := k
  have hlink : b.attached = a.attached := by rw [hb]; rfl
  refine ⟨?_, ?_, hm.trans (hlink ▸ km)⟩
  · rw [hc, hb]
  · rw [hc]; exact he

theorem Station.Acts.trans_edits {a b c : Station} (h : a.Acts b) (k : b.Edits c) : a.Acts c :=
  h.imp (·.trans k) (·.trans_edits k)

theorem Station.editAction_acts (st : Station) (tu : Vector ClassRec 15) (e : Edit) :
    st.Acts (st.editAction tu e) := by
  cases e with
  | delete =>
    change st.Acts st.deleteAction
    unfold Station.deleteAction
    split
    · exact .inr (Station.enterHeld_heldFrom _ _)
    · exact .inl (.deleteIn st _)
  | rubout =>
    change st.Acts (st.ruboutAction tu)
    unfold Station.ruboutAction
    split
    · exact (Station.operatorMove_acts _ _ _ _).trans_edits (.deleteIn _ _)
    · exact Station.operatorMove_acts _ _ _ _
  | clearField =>
    change st.Acts st.clearFieldAction
    unfold Station.clearFieldAction
    split
    · exact .inr (Station.enterHeld_heldFrom _ _)
    · exact .inl ((Station.Edits.putCells st _ _).trans (.markEdited _ _))
  | clearInput => exact (Station.Edits.eraseInput st).trans_acts (Station.operatorMove_acts _ _ _ _)
  | insert => exact .inl (.setInsert st _)

/-! ### The checks of a release (R125 to R127, R129) -/

/-- R125: the checks of a release change the sheet or end in an operator error. -/
theorem Station.pendingExit_cases (st : Station) (tu : Vector ClassRec 15) :
    (∃ st', st.pendingExit tu = .ok st' ∧ st.Edits st') ∨ ∃ st', st.pendingExit tu = .error st' ∧ st.HeldFrom st' := by
  unfold Station.pendingExit
  split
  · exact .inl ⟨st, rfl, .refl st⟩
  · split
    · exact .inl ⟨_, rfl, .passExit st _⟩
    · exact .inr ⟨_, rfl, Station.failCheck_heldFrom _ _ _⟩

/-- R126, R129: the field checks and the size check leave the station as it is or end in an operator error. -/
theorem Station.formChecks_cases (st : Station) (tu : Vector ClassRec 15) (full : Bool) :
    (st.formChecks tu full = .ok st ∧ recordSize (st.sheet.releaseEntries full) ≤ 2048) ∨
      ∃ st', st.formChecks tu full = .error st' ∧ st.HeldFrom st' := by
  unfold Station.formChecks
  split
  · exact .inr ⟨_, rfl, Station.failRelease_heldFrom _ _ _⟩
  · split
    case isTrue => exact .inr ⟨_, rfl, Station.enterHeld_heldFrom _ _⟩
    case isFalse h => exact .inl ⟨rfl, Nat.le_of_not_lt h⟩

/-- R125: a release whose checks pass leaves a sheet whose record fits in 2048 bytes; one whose checks fail is held. -/
theorem Station.releaseChecks_cases (st : Station) (tu : Vector ClassRec 15) (full : Bool) :
    (∃ st', st.releaseChecks tu full = .ok st' ∧ st.Edits st' ∧
      recordSize (st'.sheet.releaseEntries full) ≤ 2048) ∨
    ∃ st', st.releaseChecks tu full = .error st' ∧ st.HeldFrom st' := by
  unfold Station.releaseChecks
  rcases st.pendingExit_cases tu with ⟨st1, h1, e1⟩ | ⟨st1, h1, e1⟩ <;> rw [h1]
  · rcases st1.formChecks_cases tu full with ⟨h2, hsize⟩ | ⟨st2, h2, e2⟩
    · exact .inl ⟨st1, h2, e1, hsize⟩
    · exact .inr ⟨st2, h2, e1.trans_held e2⟩
  · exact .inr ⟨st1, rfl, e1⟩

/-! ### Directives (R52) -/

/-- Everything a directive changes of its station: the sheet, the message area, and marks. -/
def Station.Writes (st st' : Station) : Prop :=
  st' = { st with sheet := st'.sheet, message := st'.message, dr := st'.dr } ∧
    Refresh.MarkedFrom st.attached st.dr st'.dr

theorem Station.Writes.refl (st : Station) : st.Writes st := ⟨rfl, .refl _ _⟩

theorem Station.Writes.trans {a b c : Station} (h : a.Writes b) (k : b.Writes c) : a.Writes c := by
  obtain ⟨hb, hm⟩ := h
  obtain ⟨hc, km⟩ := k
  have hlink : b.attached = a.attached := by rw [hb]; rfl
  exact ⟨by rw [hc, hb], hm.trans (hlink ▸ km)⟩

theorem Station.Edits.writes {st st' : Station} (h : st.Edits st') : st.Writes st' := ⟨by rw [h.1], h.2⟩

theorem Station.setMessage_writes (st : Station) (chars : List Byte) : st.Writes (st.setMessage chars) := by
  unfold Station.setMessage
  generalize messageArea chars = m
  obtain ⟨h, hm⟩ := Station.Edits.markIndicator { st with message := m }
  exact ⟨by rw [h], hm⟩

theorem applyDirective_writes {store : Store} {w w' : Writer} {st st' : Station} {d : Directive}
    (h : applyDirective store w st d = .ok (w', st')) : st.Writes st' := by
  cases d <;> simp only [applyDirective] at h
  case form f =>
    split at h <;> cases h
    exact ((Station.Edits.replaceSheet st _).trans (.follow _)).writes
  case clear => cases h; exact (Station.Edits.replaceSheet st _).writes
  case setPointer => split at h <;> cases h; exact .refl _
  case pointField => split at h <;> cases h; exact .refl _
  case pointBand =>
    split at h
    · cases h
    · split at h <;> cases h; exact .refl _
  case text => cases h; exact (Station.Edits.putCells st _ _).writes
  case fill => cases h; exact (Station.Edits.putCells st _ _).writes
  case field =>
    split at h <;> cases h
    exact ((Station.Edits.sheet st _).trans (.markLines _ _)).writes
  case drop =>
    split at h <;> cases h
    exact ((Station.Edits.sheet st _).trans (.markLines _ _)).writes
  case alter =>
    split at h <;> cases h
    exact ((Station.Edits.sheet st _).trans (.markLines _ _)).writes
  case cursor => split at h <;> cases h; exact (Station.Edits.placeCursor st _).writes
  case cursorField => split at h <;> cases h; exact (Station.Edits.placeCursor st _).writes
  case view => cases h; exact (Station.Edits.setTop st _).writes
  case viewBand => split at h <;> cases h; exact (Station.Edits.setTop st _).writes
  case eraseInput => cases h; exact (Station.Edits.eraseInput st).writes
  case untouch => cases h; exact (Station.Edits.sheet st _).writes
  case message => split at h <;> cases h; exact Station.setMessage_writes st _
  case band =>
    split at h
    · cases h; exact (Station.Edits.sheet st _).writes
    · split at h <;> cases h; exact (Station.Edits.sheet st _).writes

/-- R52: what phase 2 leaves of its station, whether or not a directive fails. -/
theorem applyStream_writes (store : Store) (ds : List (Nat × Directive)) (w : Writer) (st : Station) :
    st.Writes (applyStream store ds w st).2.2 := by
  induction ds generalizing w st with
  | nil => exact .refl st
  | cons d ds ih =>
    unfold applyStream
    split
    · exact .refl st
    · rename_i h
      exact (applyDirective_writes h).trans (ih _ _)

end Sys2Proof.Machine
end

section
/-! SUPPORT. Sound sheets: every change that a station engine or a directive makes of a sheet keeps it sound. -/

namespace Sys2Proof.Machine

/-! ### Printable characters -/

theorem printable_blankChar : printable blankChar = true := by decide

theorem printable_toPrintable (b : Byte) : printable (toPrintable b) = true := by
  unfold toPrintable
  split
  · assumption
  · decide

/-- Characters of a sheet: all of them printable. -/
def Printable (chars : List Byte) : Prop := ∀ c ∈ chars, printable c = true

theorem Printable.replicate_blank (n : Nat) : Printable (List.replicate n blankChar) := fun c hc => by
  rw [List.eq_of_mem_replicate hc]; exact printable_blankChar

theorem Printable.append {a b : List Byte} (ha : Printable a) (hb : Printable b) : Printable (a ++ b) := fun c hc =>
  (List.mem_append.mp hc).elim (ha c) (hb c)

theorem Printable.map_toPrintable (l : List Byte) : Printable (l.map toPrintable) := fun c hc => by
  obtain ⟨b, -, rfl⟩ := List.mem_map.mp hc
  exact printable_toPrintable b

theorem Printable.of_sublist {a b : List Byte} (h : a.Sublist b) (hb : Printable b) : Printable a := fun c hc =>
  hb c (h.mem hc)

theorem ClassRec.printable_of_permits {k : ClassRec} {c : Byte} (h : k.permitsChar c = true) : printable c = true :=
  ((Bool.and_eq_true _ _).mp h).1

/-- A cell of a memory of printable characters reads as a printable character. -/
theorem Memory.printable_read {m : Memory} (h : ∀ c ∈ m, printable c.2 = true) (a : Nat) :
    printable (Memory.read cellDefault m a) = true := by
  induction m with
  | nil => exact printable_blankChar
  | cons c m ih =>
    rw [Memory.read_cons]
    split
    · exact h c (by simp)
    · exact ih fun d hd => h d (by simp [hd])

theorem Sheet.Sound.printable_readList {sh : Sheet} (h : sh.Sound) (a n : Nat) :
    Printable (Memory.readList cellDefault sh.cells a n) := by
  obtain ⟨-, -, -, -, ⟨-, hcells⟩, -⟩ := h
  intro c hc
  obtain ⟨i, -, rfl⟩ := List.mem_map.mp hc
  exact Memory.printable_read (fun d hd => (hcells d hd).2) _

theorem entryOf_sublist (content : List Byte) : (entryOf content).Sublist content := by
  have h : (dropTrailing content).Sublist content := by
    unfold dropTrailing
    simpa using (List.dropWhile_sublist (fun b => b == blankChar) (l := content.reverse)).reverse
  exact (List.dropWhile_sublist _).trans h

theorem Printable.justified {content : List Byte} (h : Printable content) (j : Justify) :
    Printable (justified j content) := by
  unfold Machine.justified
  split
  · exact h
  · cases j
    · exact h
    · exact (Printable.replicate_blank _).append (h.of_sublist (entryOf_sublist _))
    · refine Printable.append (fun c hc => ?_) (h.of_sublist (entryOf_sublist _))
      rw [List.eq_of_mem_replicate hc]
      decide

/-! ### The cursor and the view top (R13, R19, R20) -/

theorem Sheet.size_pos {sh : Sheet} (h : sh.Sound) : 0 < sh.size := by
  obtain ⟨hrows, -⟩ := h
  unfold Sheet.size
  omega

/-- R20: the follow rule keeps the view top in its range. -/
theorem Sheet.followTop_range {sh : Sheet} {row t : Nat} (hrows : 24 ≤ sh.rows) (hheader : sh.header ≤ 8)
    (hrow : row < sh.rows) (ht : sh.header ≤ t ∧ t ≤ sh.rows - 24 + sh.header) :
    sh.header ≤ sh.followTop row t ∧ sh.followTop row t ≤ sh.rows - 24 + sh.header := by
  unfold Sheet.followTop Sheet.scroll
  split
  · exact ht
  · split
    · omega
    · split <;> omega

theorem Sheet.clampTop_range {sh : Sheet} (t : Nat) :
    sh.header ≤ sh.clampTop t ∧ sh.clampTop t ≤ sh.rows - 24 + sh.header := by
  unfold Sheet.clampTop Sheet.maxTop
  omega

/-- R13: a move carried out to a cell of the sheet, inside the edited field if there is one, keeps the sheet sound. -/
theorem Sheet.Sound.moved {sh : Sheet} (h : sh.Sound) {a t : Nat} (ha : a < sh.size)
    (he : ∀ k ∈ sh.edited, ∃ f ∈ sh.fields, f.number = k ∧ f.covers a = true)
    (ht : sh.header ≤ t ∧ t ≤ sh.rows - 24 + sh.header) :
    ({ sh with cursor := a, top := sh.followTop (a / 80) t } : Sheet).Sound := by
  obtain ⟨hrows, hheader, -, -, hcells, hfields, hband, -⟩ := h
  have hrow : a / 80 < sh.rows := by unfold Sheet.size at ha; omega
  exact ⟨hrows, hheader, ha, Sheet.followTop_range hrows.1 hheader hrow ht, hcells, hfields, hband, he⟩

theorem Sheet.Sound.withTop {sh : Sheet} (h : sh.Sound) {t : Nat}
    (ht : sh.header ≤ t ∧ t ≤ sh.rows - 24 + sh.header) : ({ sh with top := t } : Sheet).Sound := by
  obtain ⟨hrows, hheader, hcursor, -, hcells, hfields, hband, hedited⟩ := h
  exact ⟨hrows, hheader, hcursor, ht, hcells, hfields, hband, hedited⟩

theorem Sheet.Sound.unedited {sh : Sheet} (h : sh.Sound) : ({ sh with edited := none } : Sheet).Sound := by
  obtain ⟨hrows, hheader, hcursor, htop, hcells, hfields, hband, -⟩ := h
  exact ⟨hrows, hheader, hcursor, htop, hcells, hfields, hband, fun k hk => nomatch hk⟩

theorem Sheet.Sound.withEdited {sh : Sheet} (h : sh.Sound) {f : Field} (hf : f ∈ sh.fields)
    (hc : f.covers sh.cursor = true) : ({ sh with edited := some f.number } : Sheet).Sound := by
  obtain ⟨hrows, hheader, hcursor, htop, hcells, hfields, hband, -⟩ := h
  refine ⟨hrows, hheader, hcursor, htop, hcells, hfields, hband, fun k hk => ?_⟩
  cases hk
  exact ⟨f, hf, rfl, hc⟩

theorem Sheet.Sound.withInsert {sh : Sheet} (h : sh.Sound) (i : Bool) : ({ sh with insert := i } : Sheet).Sound := h

theorem Sheet.Sound.withBand {sh : Sheet} (h : sh.Sound) {b : Option Band}
    (hb : ∀ x ∈ b, x.valid sh.rows sh.header = true) : ({ sh with band := b } : Sheet).Sound := by
  obtain ⟨hrows, hheader, hcursor, htop, hcells, hfields, -, hedited⟩ := h
  exact ⟨hrows, hheader, hcursor, htop, hcells, hfields, hb, hedited⟩

/-! ### Cells (R1) -/

/-- Printable characters written inside the sheet keep it sound. -/
theorem Sheet.Sound.putCells {sh : Sheet} (h : sh.Sound) {a : Nat} {chars : List Byte}
    (hfit : chars = [] ∨ a + chars.length ≤ sh.size) (hchars : Printable chars) : (sh.putCells a chars).Sound := by
  obtain ⟨hrows, hheader, hcursor, htop, ⟨hwf, hcells⟩, hfields, hband, hedited⟩ := h
  refine ⟨hrows, hheader, hcursor, htop, ⟨Memory.wf_writeList _ _ _ hwf, fun c hc => ?_⟩, hfields, hband, hedited⟩
  rcases Memory.mem_writeList hc with hc | ⟨-, hlt, hmem⟩
  · exact hcells c hc
  · refine ⟨?_, hchars _ hmem⟩
    rcases hfit with rfl | hfit
    · cases hmem
    · exact Nat.lt_of_lt_of_le hlt hfit

/-! ### Fields (R4 to R7) -/

theorem Field.covers_iff {f : Field} {a : Nat} : f.covers a = true ↔ f.start ≤ a ∧ a < f.start + f.length := by
  simp [Field.covers]

/-- A field of a sound sheet lies inside it and has a cell. -/
theorem Sheet.Sound.field {sh : Sheet} (h : sh.Sound) {f : Field} (hf : f ∈ sh.fields) :
    1 ≤ f.length ∧ f.start + f.length ≤ sh.size := by
  obtain ⟨-, -, -, -, -, ⟨hfields, -⟩, -⟩ := h
  obtain ⟨-, hlen, hend⟩ := hfields f hf
  exact ⟨hlen.1, hend⟩

theorem Sheet.Sound.start_lt {sh : Sheet} (h : sh.Sound) {f : Field} (hf : f ∈ sh.fields) : f.start < sh.size := by
  obtain ⟨hlen, hend⟩ := h.field hf
  omega

theorem Sheet.Sound.covers_start {sh : Sheet} (h : sh.Sound) {f : Field} (hf : f ∈ sh.fields) :
    f.covers f.start = true := by
  obtain ⟨hlen, -⟩ := h.field hf
  exact Field.covers_iff.mpr (by omega)

/-- A change of the fields that leaves number, start and length of each as they were keeps the sheet sound. -/
theorem Sheet.Sound.mapFields {sh : Sheet} (h : sh.Sound) {g : Field → Field}
    (hg : ∀ f, (g f).number = f.number ∧ (g f).start = f.start ∧ (g f).length = f.length) :
    ({ sh with fields := sh.fields.map g } : Sheet).Sound := by
  obtain ⟨hrows, hheader, hcursor, htop, hcells, ⟨hin, hpair⟩, hband, hedited⟩ := h
  refine ⟨hrows, hheader, hcursor, htop, hcells, ⟨fun f hf => ?_, ?_⟩, hband, fun k hk => ?_⟩
  · obtain ⟨e, he, rfl⟩ := List.mem_map.mp hf
    obtain ⟨hnum, hstart, hlen⟩ := hg e
    rw [hnum, hstart, hlen]
    exact hin e he
  · rw [List.pairwise_map]
    refine hpair.imp fun {e f} hef => ?_
    rw [(hg e).1, (hg e).2.1, (hg e).2.2, (hg f).1, (hg f).2.1]
    exact hef
  · obtain ⟨f, hf, hn, hc⟩ := hedited k hk
    obtain ⟨hnum, hstart, hlen⟩ := hg f
    refine ⟨g f, List.mem_map_of_mem hf, hnum.trans hn, ?_⟩
    rw [Field.covers_iff] at hc ⊢
    rw [hstart, hlen]
    exact hc

theorem Sheet.Sound.changeField {sh : Sheet} (h : sh.Sound) (k : Nat) {g : Field → Field}
    (hg : ∀ f, (g f).number = f.number ∧ (g f).start = f.start ∧ (g f).length = f.length) :
    (sh.changeField k g).Sound :=
  h.mapFields fun f => by split; exacts [hg f, ⟨rfl, rfl, rfl⟩]

theorem Sheet.Sound.untouchAll {sh : Sheet} (h : sh.Sound) : sh.untouchAll.Sound :=
  h.mapFields fun _ => ⟨rfl, rfl, rfl⟩

theorem Sheet.Sound.untouchInput {sh : Sheet} (h : sh.Sound) : sh.untouchInput.Sound :=
  h.mapFields fun f => by split <;> exact ⟨rfl, rfl, rfl⟩

/-- R7, R12: a field that holds the cursor becomes touched and edited. -/
theorem Sheet.Sound.touchEdited {sh : Sheet} (h : sh.Sound) {f : Field} (hf : f ∈ sh.fields)
    (hc : f.covers sh.cursor = true) : ({ sh.touch f.number with edited := some f.number } : Sheet).Sound := by
  have htouch : (sh.touch f.number).Sound := h.changeField _ fun _ => ⟨rfl, rfl, rfl⟩
  have hmem : ({ f with touched := true } : Field) ∈ (sh.touch f.number).fields :=
    List.mem_map.mpr ⟨f, hf, by simp⟩
  exact htouch.withEdited (f := { f with touched := true }) hmem hc

theorem Sheet.Sound.insertField {sh : Sheet} (h : sh.Sound) {f : Field} (hnum : 1 ≤ f.number ∧ f.number ≤ 160)
    (hlen : 1 ≤ f.length ∧ f.length ≤ 255) (hend : f.start + f.length ≤ sh.size)
    (hfree : ∀ g ∈ sh.fields, g.number ≠ f.number ∧ (f.start + f.length ≤ g.start ∨ g.start + g.length ≤ f.start)) :
    (sh.insertField f).Sound := by
  obtain ⟨hrows, hheader, hcursor, htop, hcells, ⟨hin, hpair⟩, hband, hedited⟩ := h
  refine ⟨hrows, hheader, hcursor, htop, hcells,
    ⟨fun g hg => ?_, insertByStart_pairwise f _ hpair hfree hlen.1⟩, hband, fun k hk => ?_⟩
  · rcases (mem_insertByStart f g _).mp hg with rfl | hg
    · exact ⟨hnum, hlen, hend⟩
    · exact hin g hg
  · obtain ⟨g, hg, hn, hc⟩ := hedited k hk
    exact ⟨g, (mem_insertByStart f g _).mpr (.inr hg), hn, hc⟩

theorem Sheet.Sound.dropField {sh : Sheet} (h : sh.Sound) (k : Nat) : (sh.dropField k).Sound := by
  obtain ⟨hrows, hheader, hcursor, htop, hcells, ⟨hin, hpair⟩, hband, hedited⟩ := h
  refine ⟨hrows, hheader, hcursor, htop, hcells,
    ⟨fun f hf => hin f (List.mem_of_mem_filter hf), hpair.filter _⟩, hband, fun j hj => ?_⟩
  by_cases hk : sh.edited = some k
  · simp [Sheet.dropField, hk] at hj
  · have hj' : sh.edited = some j := by simpa [Sheet.dropField, hk] using hj
    obtain ⟨f, hf, hn, hc⟩ := hedited j hj'
    have hne : f.number ≠ k := by
      rintro rfl
      exact hk (hn ▸ hj')
    exact ⟨f, List.mem_filter.mpr ⟨hf, by simpa using hne⟩, hn, hc⟩

/-- R2, R22: a blank sheet of permitted numbers of rows and header rows. -/
theorem Sheet.blank_sound {rows header : Nat} (hrows : 24 ≤ rows ∧ rows ≤ 72) (hheader : header ≤ 8) :
    (Sheet.blank rows header).Sound := by
  refine ⟨hrows, hheader, ?_, ⟨Nat.le_refl _, Nat.le_add_left _ _⟩, ⟨Memory.wf_nil, fun c hc => absurd hc List.not_mem_nil⟩,
    ⟨fun f hf => absurd hf List.not_mem_nil, .nil⟩, fun b hb => absurd hb (Option.not_mem_none b),
    fun k hk => absurd hk (Option.not_mem_none k)⟩
  have : 0 < rows * 80 := by omega
  exact this

theorem Station.atReset_sheet_sound : Station.atReset.sheet.Sound :=
  Sheet.blank_sound ⟨Nat.le_refl _, by decide⟩ (Nat.zero_le _)

end Sys2Proof.Machine
end

section
/-! SUPPORT. The operations of the station engine keep a sound sheet sound: moves, checks, edits, scans, releases and
directives. -/

namespace Sys2Proof.Machine

/-! ### Operator moves (R13 to R18) -/

theorem Sheet.leaving_spec {sh : Sheet} {target : Nat} {f : Field} (h : sh.leaving target = some f) :
    f ∈ sh.fields ∧ sh.edited = some f.number := by
  have hf : sh.editedField = some f := (Option.filter_eq_some_iff.mp h).1
  obtain ⟨k, hk, hn⟩ := Option.bind_eq_some_iff.mp hf
  obtain ⟨hmem, rfl⟩ := Sheet.fieldNumbered_some hn
  exact ⟨hmem, hk⟩

theorem Sheet.editedField_mem {sh : Sheet} {f : Field} (h : sh.editedField = some f) : f ∈ sh.fields := by
  obtain ⟨k, -, hn⟩ := Option.bind_eq_some_iff.mp h
  exact (Sheet.fieldNumbered_some hn).1

theorem Station.carryOut_sheet (st : Station) (target : Nat) (top : Option Nat) :
    (st.carryOut target top).sheet =
      { st.sheet with cursor := target, top := st.sheet.followTop (target / 80) (top.getD st.sheet.top) } := by
  rw [Station.carryOut_eq]

theorem Station.putCells_sound {st : Station} (h : st.sheet.Sound) {a : Nat} {chars : List Byte}
    (hfit : chars = [] ∨ a + chars.length ≤ st.sheet.size) (hchars : Printable chars) :
    (st.putCells a chars).sheet.Sound := by
  rw [Station.putCells_sheet]
  exact h.putCells hfit hchars

/-- R112: a passed exit check of a field of the table. -/
theorem Station.passExit_sound {st : Station} (h : st.sheet.Sound) {f : Field} (hf : f ∈ st.sheet.fields) :
    (st.passExit f).sheet.Sound := by
  refine Sheet.Sound.unedited (sh := (st.justifyField f).sheet) ?_
  unfold Station.justifyField
  split
  · exact h
  · exact Station.putCells_sound h (.inr (by rw [length_justified, Sheet.length_content]; exact (h.field hf).2))
      ((h.printable_readList _ _).justified _)

theorem Station.passExit_size (st : Station) (f : Field) : (st.passExit f).sheet.size = st.sheet.size := by
  rw [Station.passExit_eq]; rfl

theorem Station.carryOut_sound {st : Station} (h : st.sheet.Sound) {target : Nat} {top : Option Nat}
    (ha : target < st.sheet.size) (ht : ∀ t ∈ top, st.sheet.header ≤ t ∧ t ≤ st.sheet.rows - 24 + st.sheet.header)
    (he : ∀ k ∈ st.sheet.edited, ∃ f ∈ st.sheet.fields, f.number = k ∧ f.covers target = true) :
    (st.carryOut target top).sheet.Sound := by
  rw [Station.carryOut_sheet]
  refine h.moved ha he ?_
  cases top with
  | none => exact h.2.2.2.1
  | some t => exact ht t rfl

/-- R113, R127: the cursor at the start of a field of the table, the field edited or none. -/
theorem Station.carryOut_start_sound {st : Station} (h : st.sheet.Sound) {f : Field} (hf : f ∈ st.sheet.fields)
    (he : st.sheet.edited = none ∨ st.sheet.edited = some f.number) :
    (st.carryOut f.start none).sheet.Sound := by
  refine Station.carryOut_sound h (h.start_lt hf) (fun t ht => nomatch ht) fun k hk => ?_
  rcases he with he | he
  · rw [he] at hk; cases hk
  · rw [he] at hk; cases hk
    exact ⟨f, hf, rfl, h.covers_start hf⟩

theorem Station.failCheck_sound {st : Station} (h : st.sheet.Sound) {f : Field} (hf : f ∈ st.sheet.fields)
    (he : st.sheet.edited = none ∨ st.sheet.edited = some f.number) (e : OpError) :
    (st.failCheck f e).sheet.Sound := by
  unfold Station.failCheck
  rw [Station.enterHeld_sheet]
  exact Station.carryOut_start_sound h hf he

/-- R13: an operator move to a cell of the sheet. -/
theorem Station.operatorMove_sound {st : Station} (h : st.sheet.Sound) (tu : Vector ClassRec 15) {target : Nat}
    {top : Option Nat} (ha : target < st.sheet.size)
    (ht : ∀ t ∈ top, st.sheet.header ≤ t ∧ t ≤ st.sheet.rows - 24 + st.sheet.header) :
    (st.operatorMove tu target top).sheet.Sound := by
  rcases st.operatorMove_cases tu target top with ⟨hl, hm⟩ | ⟨f, hl, -, hm⟩ | ⟨f, e, hl, -, hm⟩ <;> rw [hm]
  · refine Station.carryOut_sound h ha ht fun k hk => ?_
    obtain ⟨-, -, -, -, -, -, -, hedited⟩ := id h
    obtain ⟨f, hf, rfl, hc⟩ := hedited k hk
    cases hct : f.covers target with
    | true => exact ⟨f, hf, rfl, hct⟩
    | false => rw [Sheet.leaving_some h hf hk hct] at hl; cases hl
  · obtain ⟨hf, -⟩ := Sheet.leaving_spec hl
    have hnone : (st.passExit f).sheet.edited = none := by rw [Station.passExit_eq]
    refine Station.carryOut_sound (Station.passExit_sound h hf) (by rwa [Station.passExit_size])
      (by rw [Station.passExit_eq]; exact ht) fun k hk => ?_
    rw [hnone] at hk
    cases hk
  · obtain ⟨hf, hed⟩ := Sheet.leaving_spec hl
    exact Station.failCheck_sound h hf (.inr hed) e

/-! ### The targets of moves (R14 to R18) -/

theorem Sheet.Sound.inputStarts_lt {sh : Sheet} (h : sh.Sound) {a : Nat} (ha : a ∈ sh.inputStarts) : a < sh.size := by
  obtain ⟨f, hf, rfl⟩ := List.mem_map.mp ha
  exact h.start_lt (List.mem_of_mem_filter hf)

theorem Sheet.Sound.homeTarget_lt {sh : Sheet} (h : sh.Sound) : sh.homeTarget < sh.size := by
  unfold Sheet.homeTarget
  cases hs : sh.inputStarts with
  | nil => exact Sheet.size_pos h
  | cons a l => exact h.inputStarts_lt (by rw [hs]; exact List.mem_cons_self)

theorem Sheet.Sound.nextTarget_lt {sh : Sheet} (h : sh.Sound) : sh.nextTarget < sh.size := by
  unfold Sheet.nextTarget
  cases hs : sh.inputStarts.find? fun a => decide (sh.cursor < a) with
  | none => exact h.homeTarget_lt
  | some a => exact h.inputStarts_lt (List.mem_of_find?_eq_some hs)

theorem Sheet.Sound.prevTarget_lt {sh : Sheet} (h : sh.Sound) : sh.prevTarget < sh.size := by
  unfold Sheet.prevTarget
  cases hs : (sh.inputStarts.filter fun a => decide (a < sh.cursor)).getLast? with
  | some a => exact h.inputStarts_lt (List.mem_of_mem_filter (List.mem_of_getLast? hs))
  | none =>
    cases hl : sh.inputStarts with
    | nil => exact Sheet.size_pos h
    | cons a l =>
      refine h.inputStarts_lt ?_
      rw [hl, Option.getD_none, List.getLastD_eq_getLast?, List.getLast?_eq_some_getLast (List.cons_ne_nil a l)]
      exact List.getLast_mem _

theorem Sheet.Sound.newlineTarget_lt {sh : Sheet} (h : sh.Sound) : sh.newlineTarget < sh.size := by
  unfold Sheet.newlineTarget
  dsimp only
  split
  · exact Nat.mod_lt _ (Sheet.size_pos h)
  · rename_i first rest hs
    cases hf : (first :: rest).find? fun a => decide ((sh.cursorRow + 1) * 80 ≤ a) with
    | none => exact h.inputStarts_lt (by rw [hs]; exact List.mem_cons_self)
    | some a => exact h.inputStarts_lt (by rw [hs]; exact List.mem_of_find?_eq_some hf)

theorem Sheet.Sound.fieldEndTarget_lt {sh : Sheet} (h : sh.Sound) {a : Nat} (ha : sh.fieldEndTarget = some a) :
    a < sh.size := by
  obtain ⟨f, hf, rfl⟩ := Option.map_eq_some_iff.mp ha
  obtain ⟨hmem, -, -⟩ := Sheet.inputAt_some hf
  obtain ⟨hlen, hend⟩ := h.field hmem
  unfold Field.last
  omega

theorem Sheet.Sound.pageTarget_lt {sh : Sheet} (h : sh.Sound) {top : Nat} {p : Nat × Nat}
    (hp : sh.pageTarget top = some p) : p.1 < sh.size ∧ p.2 = top := by
  obtain ⟨hrows, hheader, -⟩ := h
  unfold Sheet.pageTarget at hp
  split at hp
  · cases hp
  · cases hp
    refine ⟨?_, rfl⟩
    unfold Sheet.size
    have : sh.cursor % 80 < 80 := Nat.mod_lt _ (by decide)
    have : max sh.header (min (sh.cursorRow + top - sh.top) (sh.rows - 1)) ≤ sh.rows - 1 := by omega
    dsimp only
    omega

/-- R14 to R18: the target of a move is a cell of the sheet, its view top in range. -/
theorem Sheet.Sound.target_range {sh : Sheet} (h : sh.Sound) {m : Move} {target : Nat} {top : Option Nat}
    (ht : sh.target m = some (target, top)) :
    target < sh.size ∧ ∀ t ∈ top, sh.header ≤ t ∧ t ≤ sh.rows - 24 + sh.header := by
  have hmod (a : Nat) : a % sh.size < sh.size := Nat.mod_lt _ (Sheet.size_pos h)
  have hpage {t : Nat} (hp : ((sh.pageTarget (sh.clampTop t)).map fun p => (p.1, some p.2)) = some (target, top)) :
      target < sh.size ∧ ∀ t ∈ top, sh.header ≤ t ∧ t ≤ sh.rows - 24 + sh.header := by
    obtain ⟨p, hpage, heq⟩ := Option.map_eq_some_iff.mp hp
    cases heq
    obtain ⟨hlt, htop⟩ := h.pageTarget_lt hpage
    refine ⟨hlt, fun t ht => ?_⟩
    cases ht
    rw [htop]
    exact Sheet.clampTop_range _
  cases m
  case fieldEnd =>
    obtain ⟨a, ha, heq⟩ := Option.map_eq_some_iff.mp ht
    cases heq
    exact ⟨h.fieldEndTarget_lt ha, fun t ht => nomatch ht⟩
  case pageUp => exact hpage ht
  case pageDown => exact hpage ht
  all_goals
    cases ht
    refine ⟨?_, fun t ht => nomatch ht⟩
  case right => exact hmod _
  case left => exact hmod _
  case up => exact hmod _
  case down => exact hmod _
  case next => exact h.nextTarget_lt
  case prev => exact h.prevTarget_lt
  case home => exact h.homeTarget_lt
  case newline => exact h.newlineTarget_lt

theorem Station.moveAction_sound {st : Station} (h : st.sheet.Sound) (tu : Vector ClassRec 15) (m : Move) :
    (st.moveAction tu m).sheet.Sound := by
  unfold Station.moveAction
  split
  · rename_i ht
    obtain ⟨hlt, htop⟩ := h.target_range ht
    exact Station.operatorMove_sound h tu hlt htop
  · exact h

/-! ### Character entry and edits (R98 to R105) -/

/-- R7, R12, R99: characters written from the cursor on, inside the field that holds it, which becomes edited. -/
theorem Station.writeEdited_sound {st : Station} (h : st.sheet.Sound) {f : Field} (hf : f ∈ st.sheet.fields)
    (hc : f.covers st.sheet.cursor = true) {a : Nat} {chars : List Byte}
    (hfit : chars = [] ∨ a + chars.length ≤ f.start + f.length) (hchars : Printable chars) :
    ((st.putCells a chars).markEdited f).sheet.Sound := by
  have hput : (st.putCells a chars).sheet.Sound :=
    Station.putCells_sound h (hfit.imp_right fun hle => le_trans hle (h.field hf).2) hchars
  have hmem : f ∈ (st.putCells a chars).sheet.fields := by rw [Station.putCells_sheet]; exact hf
  have hcur : f.covers (st.putCells a chars).sheet.cursor = true := by rw [Station.putCells_sheet]; exact hc
  exact hput.touchEdited hmem hcur

theorem Station.deleteIn_sound {st : Station} (h : st.sheet.Sound) {f : Field} (hf : f ∈ st.sheet.fields)
    (hc : f.covers st.sheet.cursor = true) : (st.deleteIn f).sheet.Sound := by
  have hcov := Field.covers_iff.mp hc
  refine Station.writeEdited_sound h hf hc (.inr ?_)
    ((h.printable_readList _ _).append (Printable.replicate_blank 1))
  simp only [Sheet.deletedChars, List.length_append, Memory.length_readList, List.length_singleton, Field.last]
  omega

theorem Station.storeChar_sound {st : Station} (h : st.sheet.Sound) {f : Field} (hf : f ∈ st.sheet.fields)
    (hc : f.covers st.sheet.cursor = true) {c : Byte} (hp : printable c = true) : (st.storeChar f c).sheet.Sound := by
  have hcov := Field.covers_iff.mp hc
  refine Station.writeEdited_sound h hf hc (.inr ?_) ?_
  · unfold Sheet.storedChars
    split <;> simp [Field.last] <;> omega
  · unfold Sheet.storedChars
    split
    · intro b hb
      rcases List.mem_cons.mp hb with rfl | hb
      · exact hp
      · exact h.printable_readList _ _ b hb
    · intro b hb
      rw [List.mem_singleton.mp hb]
      exact hp

theorem Sheet.charFault_none {sh : Sheet} {tu : Vector ClassRec 15} {f : Field} {c : Byte}
    (h : sh.charFault tu f c = none) : (classRec tu f.props.cls).permitsChar c = true := by
  unfold Sheet.charFault at h
  split at h
  · cases h
  · rename_i hp; simpa using hp

theorem Station.charAction_sound {st : Station} (h : st.sheet.Sound) (tu : Vector ClassRec 15) (c : Byte) :
    (st.charAction tu c).sheet.Sound := by
  unfold Station.charAction
  split
  · rw [Station.enterHeld_sheet]; exact h
  · rename_i f hf
    obtain ⟨hmem, -, hcov⟩ := Sheet.inputAt_some hf
    split
    · rw [Station.enterHeld_sheet]; exact h
    · rename_i hfault
      have hstored := Station.storeChar_sound h hmem hcov
        (ClassRec.printable_of_permits (Sheet.charFault_none hfault))
      refine Station.operatorMove_sound hstored tu ?_ (fun t ht => nomatch ht)
      have hsize : ∀ c, (st.storeChar f c).sheet.size = st.sheet.size := fun c => by
        unfold Station.storeChar; rw [Station.putCells_eq]; rfl
      rw [hsize]
      unfold Sheet.afterStore
      split
      · exact h.nextTarget_lt
      · exact Nat.mod_lt _ (Sheet.size_pos h)

/-- R102: a RUBOUT past the start of a field moves inside it. -/
theorem Station.operatorMove_inside {st : Station} (h : st.sheet.Sound) (tu : Vector ClassRec 15) {f : Field}
    (hf : f ∈ st.sheet.fields) (hc : f.covers st.sheet.cursor = true) {target : Nat}
    (ht : f.covers target = true) : st.operatorMove tu target none = st.carryOut target none := by
  obtain ⟨-, -, -, -, -, hfields, -, hedited⟩ := id h
  have hnone : st.sheet.leaving target = none := by
    cases he : st.sheet.edited with
    | none => exact Sheet.leaving_none he _
    | some k =>
      obtain ⟨g, hg, rfl, hgc⟩ := hedited k he
      have hsame : g = f := Option.some.inj
        ((Sheet.fieldAt_of_covers hfields hg hgc).symm.trans (Sheet.fieldAt_of_covers hfields hf hc))
      exact Sheet.leaving_inside hfields hf (hsame ▸ he) ht
  unfold Station.operatorMove
  rw [hnone]

theorem Station.ruboutAction_sound {st : Station} (h : st.sheet.Sound) (tu : Vector ClassRec 15) :
    (st.ruboutAction tu).sheet.Sound := by
  unfold Station.ruboutAction
  split
  · rename_i f hf
    obtain ⟨hin, hpast⟩ := Option.filter_eq_some_iff.mp hf
    obtain ⟨hmem, -, hcov⟩ := Sheet.inputAt_some hin
    have hpast : f.start < st.sheet.cursor := of_decide_eq_true hpast
    have hback : f.covers (st.sheet.cursor - 1) = true := by
      rw [Field.covers_iff] at hcov ⊢
      omega
    have hmoved : (st.operatorMove tu (st.sheet.cursor - 1) none).sheet.Sound :=
      Station.operatorMove_sound h tu (by have := h.2.2.1; omega) (fun t ht => nomatch ht)
    have heq := Station.operatorMove_inside h tu hmem hcov hback
    exact Station.deleteIn_sound hmoved (by rw [heq, Station.carryOut_sheet]; exact hmem)
      (by rw [heq, Station.carryOut_sheet]; exact hback)
  · exact Station.operatorMove_sound h tu (Nat.mod_lt _ (Sheet.size_pos h)) (fun t ht => nomatch ht)

theorem Station.clearFieldAction_sound {st : Station} (h : st.sheet.Sound) : st.clearFieldAction.sheet.Sound := by
  unfold Station.clearFieldAction
  split
  · rw [Station.enterHeld_sheet]; exact h
  · rename_i f hf
    obtain ⟨hmem, -, hcov⟩ := Sheet.inputAt_some hf
    have := Field.covers_iff.mp hcov
    exact Station.writeEdited_sound h hmem hcov (.inr (by rw [List.length_replicate]; omega))
      (Printable.replicate_blank _)

theorem Station.blankFields_sheet (st : Station) (fs : List Field) :
    (st.blankFields fs).sheet = { st.sheet with cells := (st.blankFields fs).sheet.cells } := by
  induction fs generalizing st with
  | nil => rfl
  | cons f fs ih =>
    unfold Station.blankFields
    split
    · rw [ih, Station.putCells_sheet]; rfl
    · exact ih st

theorem Station.blankFields_sound {st : Station} (h : st.sheet.Sound) {fs : List Field}
    (hfs : ∀ f ∈ fs, f.start + f.length ≤ st.sheet.size) : (st.blankFields fs).sheet.Sound := by
  induction fs generalizing st with
  | nil => exact h
  | cons f fs ih =>
    obtain ⟨hf, hfs⟩ := List.forall_mem_cons.mp hfs
    unfold Station.blankFields
    split
    · refine ih (Station.putCells_sound h (.inr (by rwa [List.length_replicate])) (Printable.replicate_blank _)) ?_
      rw [Station.putCells_sheet]
      exact hfs
    · exact ih h hfs

/-- R64, R104: every INPUT field blanked and untouched, none edited. -/
theorem Station.eraseInput_sound {st : Station} (h : st.sheet.Sound) : st.eraseInput.sheet.Sound :=
  Sheet.Sound.untouchInput (Station.blankFields_sound (st := st.setEdited none) h.unedited
    fun _ hf => (h.field hf).2)

theorem Station.clearInputAction_sound {st : Station} (h : st.sheet.Sound) (tu : Vector ClassRec 15) :
    (st.clearInputAction tu).sheet.Sound := by
  have hsize : st.eraseInput.sheet.size = st.sheet.size := by
    simp only [Station.eraseInput, Sheet.untouchInput, Sheet.size]
    rw [Station.blankFields_sheet]; rfl
  exact Station.operatorMove_sound (Station.eraseInput_sound h) tu (by rw [hsize]; exact h.homeTarget_lt)
    (fun t ht => nomatch ht)

theorem Station.setInsert_sound {st : Station} (h : st.sheet.Sound) (f : Bool) : (st.setInsert f).sheet.Sound := by
  unfold Station.setInsert
  split
  · exact h
  · rw [Station.markIndicator_sheet]; exact h.withInsert f

theorem Station.editAction_sound {st : Station} (h : st.sheet.Sound) (tu : Vector ClassRec 15) (e : Edit) :
    (st.editAction tu e).sheet.Sound := by
  cases e with
  | delete =>
    change st.deleteAction.sheet.Sound
    unfold Station.deleteAction
    split
    · rw [Station.enterHeld_sheet]; exact h
    · rename_i hf
      obtain ⟨hmem, -, hcov⟩ := Sheet.inputAt_some hf
      exact Station.deleteIn_sound h hmem hcov
  | rubout => exact Station.ruboutAction_sound h tu
  | clearField => exact Station.clearFieldAction_sound h
  | clearInput => exact Station.clearInputAction_sound h tu
  | insert => exact Station.setInsert_sound h _

/-! ### The checks of a release (R125 to R127) -/

theorem Sheet.firstFault_mem {sh : Sheet} {tu : Vector ClassRec 15} {fs : List Field} {f : Field} {e : OpError}
    (h : sh.firstFault tu fs = some (f, e)) : f ∈ fs := by
  induction fs with
  | nil => cases h
  | cons g fs ih =>
    unfold Sheet.firstFault at h
    split at h
    · cases h; exact List.mem_cons_self
    · exact List.mem_cons_of_mem _ (ih h)

/-- R12, R127: the register set to the field whose start the cursor stands on. -/
theorem Station.failRelease_sound {st : Station} (h : st.sheet.Sound) (he : st.sheet.edited = none) {f : Field}
    (hf : f ∈ st.sheet.fields) (e : OpError) : (st.failRelease f e).sheet.Sound := by
  unfold Station.failRelease
  rw [Station.enterHeld_sheet]
  have hs := Station.carryOut_start_sound h hf (.inl he)
  exact hs.withEdited (f := f) (by rw [Station.carryOut_sheet]; exact hf)
    (by rw [Station.carryOut_sheet]; exact h.covers_start hf)

/-- The exit check that a release runs first leaves no field edited when it passes. -/
theorem Station.pendingExit_sound {st : Station} (h : st.sheet.Sound) (tu : Vector ClassRec 15) :
    (∀ st', st.pendingExit tu = .ok st' → st'.sheet.Sound ∧ st'.sheet.edited = none) ∧
      ∀ st', st.pendingExit tu = .error st' → st'.sheet.Sound := by
  unfold Station.pendingExit
  split
  · rename_i hnone
    refine ⟨fun st' hok => ?_, fun st' herr => nomatch herr⟩
    cases hok
    refine ⟨h, ?_⟩
    cases he : st.sheet.edited with
    | none => rfl
    | some k =>
      obtain ⟨-, -, -, -, -, hfields, -, hedited⟩ := h
      obtain ⟨f, hf, rfl, -⟩ := hedited k he
      rw [Sheet.editedField, he, Option.bind_some, Sheet.fieldNumbered_of_mem hfields hf] at hnone
      cases hnone
  · rename_i f hf
    have hmem := Sheet.editedField_mem hf
    split
    · refine ⟨fun st' hok => ?_, fun st' herr => nomatch herr⟩
      cases hok
      exact ⟨Station.passExit_sound h hmem, by rw [Station.passExit_eq]⟩
    · refine ⟨fun st' hok => (nomatch hok), fun st' herr => ?_⟩
      cases herr
      obtain ⟨k, hk, hn⟩ := Option.bind_eq_some_iff.mp hf
      obtain ⟨-, rfl⟩ := Sheet.fieldNumbered_some hn
      exact Station.failCheck_sound h hmem (.inr hk) _

theorem Station.releaseChecks_sound {st : Station} (h : st.sheet.Sound) (tu : Vector ClassRec 15) (full : Bool) :
    (∀ st', st.releaseChecks tu full = .ok st' → st'.sheet.Sound) ∧
      ∀ st', st.releaseChecks tu full = .error st' → st'.sheet.Sound := by
  obtain ⟨hok, herr⟩ := Station.pendingExit_sound h tu
  unfold Station.releaseChecks
  cases hp : st.pendingExit tu with
  | error st1 => exact ⟨fun _ h => (nomatch h), fun st' h => by cases h; exact herr st1 hp⟩
  | ok st1 =>
    obtain ⟨hs1, he1⟩ := hok st1 hp
    dsimp only
    unfold Station.formChecks
    split
    · rename_i hfault
      refine ⟨fun _ h => (nomatch h), fun st' h => ?_⟩
      cases h
      split at hfault
      · exact Station.failRelease_sound hs1 he1 (Sheet.firstFault_mem hfault) _
      · cases hfault
    · split
      · refine ⟨fun _ h => (nomatch h), fun st' h => ?_⟩
        cases h
        rw [Station.enterHeld_sheet]; exact hs1
      · exact ⟨fun st' h => by cases h; exact hs1, fun _ h => nomatch h⟩

end Sys2Proof.Machine
end

section
/-! SUPPORT. Sound sheets, continued: scans, the sheets that templates build, and directives. -/

namespace Sys2Proof.Machine

/-! ### Scans (R119 to R122) -/

/-- R119: the field a scan is accepted into holds the cursor and takes all its characters. -/
theorem Sheet.scanField_spec {sh : Sheet} {tu : Vector ClassRec 15} {sc : Scan} {f : Field}
    (h : sh.scanField tu sc = some f) :
    f ∈ sh.fields ∧ f.covers sh.cursor = true ∧ sc.buffer.length ≤ f.length ∧
      ∀ c ∈ sc.buffer, (classRec tu f.props.cls).permitsChar ((classRec tu f.props.cls).foldChar c) = true := by
  obtain ⟨hin, hp⟩ := Option.filter_eq_some_iff.mp h
  obtain ⟨hmem, -, hcov⟩ := Sheet.inputAt_some hin
  obtain ⟨hlen, hall⟩ := (Bool.and_eq_true _ _).mp hp
  exact ⟨hmem, hcov, of_decide_eq_true ((Bool.and_eq_true _ _).mp hlen).2, List.all_eq_true.mp hall⟩

/-- R120: the content of an accepted scan fills its field with printable characters. -/
theorem length_scanContent (k : ClassRec) {f : Field} {sc : Scan} (h : sc.buffer.length ≤ f.length) :
    (scanContent k f sc).length = f.length := by
  simp [scanContent]; omega

theorem Printable.scanContent {k : ClassRec} {sc : Scan} (h : ∀ c ∈ sc.buffer, k.permitsChar (k.foldChar c) = true)
    (f : Field) : Printable (scanContent k f sc) := by
  refine Printable.append (fun c hc => ?_) (Printable.replicate_blank _)
  obtain ⟨b, hb, rfl⟩ := List.mem_map.mp hc
  exact ClassRec.printable_of_permits (h b hb)

theorem Station.placeScan_sound {st : Station} (h : st.sheet.Sound) {tu : Vector ClassRec 15} {sc : Scan} {f : Field}
    (hf : st.sheet.scanField tu sc = some f) : (st.placeScan tu f sc).sheet.Sound := by
  obtain ⟨hmem, hcov, hlen, hall⟩ := Sheet.scanField_spec hf
  exact Station.writeEdited_sound h hmem hcov (.inr (by rw [length_scanContent _ hlen]))
    (Printable.scanContent hall f)

/-- R7, R12: after a scan is placed its field is on the sheet, touched and edited. -/
theorem Station.placeScan_field {st : Station} {tu : Vector ClassRec 15} {sc : Scan} {f : Field}
    (hf : f ∈ st.sheet.fields) :
    ({ f with touched := true } : Field) ∈ (st.placeScan tu f sc).sheet.fields ∧
      (st.placeScan tu f sc).sheet.edited = some f.number := by
  refine ⟨?_, rfl⟩
  unfold Station.placeScan Station.markEdited
  rw [Station.putCells_sheet]
  exact List.mem_map.mpr ⟨f, hf, by simp⟩

theorem Station.scanAdvance_sound {st : Station} (h : st.sheet.Sound) (tu : Vector ClassRec 15) :
    (st.scanAdvance tu).sheet.Sound := by
  unfold Station.scanAdvance
  split
  · exact Station.operatorMove_sound h tu h.nextTarget_lt (fun t ht => nomatch ht)
  · exact h

/-! ### Templates (R54; log 20) -/

theorem clamp_range {low high : Nat} (h : low ≤ high) (n : Nat) : low ≤ clamp low high n ∧ clamp low high n ≤ high := by
  unfold clamp
  omega

theorem Sheet.accepts_iff {sh : Sheet} {f : Field} :
    sh.accepts f = true ↔ (1 ≤ f.number ∧ f.number ≤ 160) ∧ (1 ≤ f.length ∧ f.length ≤ 255) ∧
      f.start + f.length ≤ sh.size ∧
      ∀ g ∈ sh.fields, g.number ≠ f.number ∧ (f.start + f.length ≤ g.start ∨ g.start + g.length ≤ f.start) := by
  simp [Sheet.accepts, and_assoc]

theorem Sheet.insertRecords_sound {image : List Byte} {is : List Nat} {sh : Sheet} (h : sh.Sound) :
    (Sheet.insertRecords image is sh).Sound := by
  induction is generalizing sh with
  | nil => exact h
  | cons i is ih =>
    unfold Sheet.insertRecords
    split
    · refine ih ?_
      split
      · rename_i ha
        obtain ⟨hnum, hlen, hend, hfree⟩ := Sheet.accepts_iff.mp ha
        exact h.insertField hnum hlen hend hfree
      · exact h
    · exact ih h

theorem Sheet.insertRecords_frame (image : List Byte) (is : List Nat) (sh : Sheet) :
    Sheet.insertRecords image is sh = { sh with fields := (Sheet.insertRecords image is sh).fields } := by
  induction is generalizing sh with
  | nil => rfl
  | cons i is ih =>
    unfold Sheet.insertRecords
    split
    · rw [ih]; split <;> rfl
    · exact ih sh

theorem Sheet.writeRuns_frame (runs : List (Nat × Nat × List Byte)) (sh : Sheet) :
    Sheet.writeRuns runs sh = { sh with cells := (Sheet.writeRuns runs sh).cells } := by
  induction runs generalizing sh with
  | nil => rfl
  | cons r runs ih =>
    obtain ⟨off, start, chars⟩ := r
    unfold Sheet.writeRuns
    rw [ih]
    rfl

/-- Characters cut at the sheet's end fit. -/
theorem take_fits (sh : Sheet) (a : Nat) (chars : List Byte) :
    (chars.take (sh.size - a)).map toPrintable = [] ∨
      a + ((chars.take (sh.size - a)).map toPrintable).length ≤ sh.size := by
  by_cases h : sh.size ≤ a
  · left
    rw [Nat.sub_eq_zero_of_le h, List.take_zero, List.map_nil]
  · right
    rw [List.length_map, List.length_take]
    omega

theorem Sheet.writeRuns_sound {runs : List (Nat × Nat × List Byte)} {sh : Sheet} (h : sh.Sound) :
    (Sheet.writeRuns runs sh).Sound := by
  induction runs generalizing sh with
  | nil => exact h
  | cons r runs ih =>
    obtain ⟨off, start, chars⟩ := r
    exact ih (h.putCells (take_fits sh start chars) (Printable.map_toPrintable _))

theorem Sheet.bandFrom_valid {image : List Byte} {sh : Sheet} {b : Band} (h : b ∈ sh.bandFrom image) :
    b.valid sh.rows sh.header = true :=
  (Option.filter_eq_some_iff.mp h).2

/-- R54, R153: whatever the image, the sheet it builds is sound. -/
theorem templateSheet_sound (image : List Byte) : (templateSheet image).Sound := by
  have hbase : (Sheet.blank (clamp 24 72 (imageByte image 1)) (clamp 0 8 (imageByte image 2))).Sound :=
    Sheet.blank_sound (clamp_range (by decide) _) (clamp_range (by decide) _).2
  have hfields := Sheet.insertRecords_sound (image := image) (is := List.range (imageByte image 4)) hbase
  have hruns := Sheet.writeRuns_sound (runs := ((imageRuns image).map Prod.fst).getD []) hfields
  have hedited : (Sheet.writeRuns (((imageRuns image).map Prod.fst).getD [])
      (Sheet.insertRecords image (List.range (imageByte image 4))
        (Sheet.blank (clamp 24 72 (imageByte image 1)) (clamp 0 8 (imageByte image 2))))).edited = none := by
    rw [Sheet.writeRuns_frame, Sheet.insertRecords_frame]
    rfl
  unfold templateSheet
  dsimp only
  generalize Sheet.writeRuns _ _ = sh at hruns hedited
  obtain ⟨hrows, hheader, -, htop, hcells, hfs, -⟩ := id hruns
  refine ⟨hrows, hheader, ?_, htop, hcells, hfs, fun b hb => Sheet.bandFrom_valid hb, fun k hk => ?_⟩
  · cases hn : sh.fieldNumbered (imageByte image 3) with
    | none =>
      have hpos : 0 < sh.size := Sheet.size_pos hruns
      exact hpos
    | some f => exact hruns.start_lt (Sheet.fieldNumbered_some hn).1
  · rw [hedited] at hk
    cases hk

/-! ### Directives (R54 to R66) -/

theorem Station.setTop_sound {st : Station} (h : st.sheet.Sound) {t : Nat}
    (ht : st.sheet.header ≤ t ∧ t ≤ st.sheet.rows - 24 + st.sheet.header) : (st.setTop t).sheet.Sound := by
  rw [Station.setTop_eq]
  exact h.withTop ht

theorem Station.follow_sound {st : Station} (h : st.sheet.Sound) : st.follow.sheet.Sound := by
  obtain ⟨hrows, hheader, hcursor, htop, -⟩ := id h
  have hrow : st.sheet.cursorRow < st.sheet.rows := by
    unfold Sheet.cursorRow
    unfold Sheet.size at hcursor
    omega
  exact Station.setTop_sound h (Sheet.followTop_range hrows.1 hheader hrow htop)

theorem Station.placeCursor_sound {st : Station} (h : st.sheet.Sound) (he : st.sheet.edited = none) {a : Nat}
    (ha : a < st.sheet.size) : (st.placeCursor a).sheet.Sound := by
  refine Station.follow_sound ?_
  rw [Station.setCursor_eq]
  obtain ⟨hrows, hheader, -, htop, hcells, hfields, hband, -⟩ := h
  refine ⟨hrows, hheader, ha, htop, hcells, hfields, hband, fun k hk => ?_⟩
  rw [he] at hk
  cases hk

theorem writeText_edited (w : Writer) (st : Station) (chars : List Byte) :
    (writeText w st chars).2.sheet.edited = st.sheet.edited := by
  simp only [writeText, Station.putCells_sheet]
  rfl

theorem writeText_sound {w : Writer} {st : Station} (h : st.sheet.Sound) (chars : List Byte) :
    (writeText w st chars).2.sheet.Sound :=
  Station.putCells_sound h (take_fits st.sheet w.pointer chars) (Printable.map_toPrintable _)

/-- R59: what the checks of FIELD leave of a field that passes them. -/
theorem Sheet.fieldFault_none {sh : Sheet} {k start length : Nat} {cls : Byte}
    (h : sh.fieldFault k start length cls = none) :
    (1 ≤ k ∧ k ≤ 160) ∧ 1 ≤ length ∧ start + length ≤ sh.size ∧
      ∀ g ∈ sh.fields, g.number ≠ k ∧ (start + length ≤ g.start ∨ g.start + g.length ≤ start) := by
  unfold Sheet.fieldFault at h
  split at h
  · cases h
  · rename_i hk
    split at h
    · cases h
    · rename_i hused
      split at h
      · cases h
      · rename_i hlen
        split at h
        · cases h
        · rename_i hplace
          split at h
          · cases h
          · split at h
            · cases h
            · rename_i hover
              refine ⟨by omega, by omega, by omega, fun g hg => ⟨?_, ?_⟩⟩
              · have hnone : sh.fieldNumbered k = none := by simpa using hused
                simpa using List.find?_eq_none.mp hnone g hg
              · have hfree : ¬ (sh.fields.any fun g => decide (start < g.start + g.length ∧ g.start < start + length)) = true :=
                  hover
                rw [List.any_eq_true, not_exists] at hfree
                have := hfree g
                simp only [decide_eq_true_eq, not_and] at this
                have := this hg
                omega

/-- A directive leaves the register clear, and the sheet sound. The length byte of FIELD is at most 255. -/
theorem applyDirective_sound {store : Store} {w w' : Writer} {st st' : Station} {d : Directive}
    (h : st.sheet.Sound) (he : st.sheet.edited = none)
    (hlen : ∀ k start length props cls fill, d = .field k start length props cls fill → length ≤ 255)
    (happly : applyDirective store w st d = .ok (w', st')) :
    st'.sheet.Sound ∧ st'.sheet.edited = none := by
  cases d <;> simp only [applyDirective] at happly
  case form f =>
    split at happly <;> cases happly
    refine ⟨Station.follow_sound (by rw [Station.replaceSheet_sheet]; exact templateSheet_sound _), ?_⟩
    rw [Station.follow, Station.setTop_eq, Station.replaceSheet_sheet]
    simp only [templateSheet]
    rw [Sheet.writeRuns_frame, Sheet.insertRecords_frame]
    rfl
  case clear =>
    cases happly
    rw [Station.replaceSheet_sheet]
    exact ⟨Sheet.blank_sound (clamp_range (by decide) _) (clamp_range (by decide) _).2, rfl⟩
  case setPointer => split at happly <;> cases happly; exact ⟨h, he⟩
  case pointField => split at happly <;> cases happly; exact ⟨h, he⟩
  case pointBand =>
    split at happly
    · cases happly
    · split at happly <;> cases happly; exact ⟨h, he⟩
  case text chars =>
    cases happly
    exact ⟨writeText_sound h chars, (writeText_edited w st _).trans he⟩
  case fill count c =>
    cases happly
    exact ⟨writeText_sound h _, (writeText_edited w st _).trans he⟩
  case field k start length props cls fill =>
    split at happly <;> cases happly
    rename_i hfault _
    obtain ⟨hk, hl, hend, hfree⟩ := Sheet.fieldFault_none hfault
    rw [Station.markField_sheet]
    exact ⟨h.insertField hk ⟨hl, hlen _ _ _ _ _ _ rfl⟩ hend hfree, he⟩
  case drop k =>
    split at happly <;> cases happly
    rw [Station.markField_sheet]
    exact ⟨h.dropField k, by simp [Sheet.dropField, he]⟩
  case alter k =>
    split at happly <;> cases happly
    rw [Station.markField_sheet]
    exact ⟨h.changeField _ fun _ => ⟨rfl, rfl, rfl⟩, he⟩
  case cursor a =>
    split at happly <;> cases happly
    rename_i ha
    exact ⟨Station.placeCursor_sound h he ha, by
      rw [Station.placeCursor, Station.follow, Station.setTop_eq, Station.setCursor_eq]; exact he⟩
  case cursorField k =>
    split at happly <;> cases happly
    rename_i f hf
    exact ⟨Station.placeCursor_sound h he (h.start_lt (Sheet.fieldNumbered_some hf).1), by
      rw [Station.placeCursor, Station.follow, Station.setTop_eq, Station.setCursor_eq]; exact he⟩
  case view t =>
    cases happly
    exact ⟨Station.setTop_sound h (Sheet.clampTop_range t), by rw [Station.setTop_eq]; exact he⟩
  case viewBand i =>
    split at happly <;> cases happly
    exact ⟨Station.setTop_sound h (Sheet.clampTop_range _), by rw [Station.setTop_eq]; exact he⟩
  case eraseInput =>
    cases happly
    refine ⟨Station.eraseInput_sound h, ?_⟩
    unfold Station.eraseInput Sheet.untouchInput
    dsimp only
    rw [Station.blankFields_sheet]
    rfl
  case untouch => cases happly; exact ⟨h.untouchAll, he⟩
  case message chars => split at happly <;> cases happly; rw [Station.setMessage_sheet]; exact ⟨h, he⟩
  case band b =>
    split at happly
    · cases happly; exact ⟨h.withBand fun x hx => (nomatch hx), he⟩
    · split at happly <;> cases happly
      rename_i hv
      exact ⟨h.withBand fun x hx => by cases hx; exact hv, he⟩

/-- The operands of a directive that phase 1 passes: FIELD's length is a byte. -/
def Directive.InRange (d : Directive) : Prop :=
  ∀ k start length props cls fill, d = .field k start length props cls fill → length ≤ 255

theorem parseDirective_inRange {code : Byte} {bytes rest : List Byte} {d : Directive}
    (h : parseDirective code bytes = .found d rest) : d.InRange := by
  have counted {make : List Byte → Directive} (hm : ∀ l, (make l).InRange) {bytes rest : List Byte} {d : Directive}
      (h : parseCounted make bytes = .found d rest) : d.InRange := by
    unfold parseCounted at h
    split at h
    · cases h
    · split at h <;> cases h
      exact hm _
  unfold parseDirective at h
  split at h
  case h_6 => exact counted (fun l => by intro k s n p c f hd; cases hd) h
  case h_17 => exact counted (fun l => by intro k s n p c f hd; cases hd) h
  case h_19 => split at h <;> cases h
  all_goals
    cases h
    intro k s n p c f hd
    cases hd
  exact Nat.le_of_lt_succ (BitVec.isLt _)

theorem walkStream_inRange {busy : Bool} {fuel offset : Nat} {bytes : List Byte} {ds : List (Nat × Directive)}
    (h : walkStream busy fuel offset bytes = .ok ds) : ∀ d ∈ ds, d.2.InRange := by
  induction fuel generalizing offset bytes ds with
  | zero => cases bytes <;> cases h <;> exact fun d hd => nomatch hd
  | succ fuel ih =>
    cases bytes with
    | nil => cases h; exact fun d hd => nomatch hd
    | cons code bytes =>
      unfold walkStream at h
      split at h
      · cases h
      · cases h
      · rename_i hp
        split at h
        · cases h
        · split at h
          · cases h
          · rename_i hw
            cases h
            exact List.forall_mem_cons.mpr ⟨parseDirective_inRange hp, ih hw⟩

/-- R52: phase 2 keeps the sheet sound, from a clear register. -/
theorem applyStream_sound {store : Store} {ds : List (Nat × Directive)} {w : Writer} {st : Station}
    (h : st.sheet.Sound) (he : st.sheet.edited = none) (hds : ∀ d ∈ ds, d.2.InRange) :
    (applyStream store ds w st).2.2.sheet.Sound := by
  induction ds generalizing w st with
  | nil => exact h
  | cons d ds ih =>
    obtain ⟨hd, hds⟩ := List.forall_mem_cons.mp hds
    unfold applyStream
    split
    · exact h
    · rename_i happly
      obtain ⟨hs, hn⟩ := applyDirective_sound h he hd happly
      exact ih hs hn hds

end Sys2Proof.Machine
end

section
/-! SUPPORT. What the station side of the part can do to the state, said once for every operation: the stations, the
release queue and the attention register change, nothing else does, and sound sheets stay sound. -/

namespace Sys2Proof.Machine

/-- The checks of a field do not look at its touched flag. -/
theorem Station.failCheck_touched (st : Station) (f : Field) (e : OpError) :
    st.failCheck { f with touched := true } e = st.failCheck f e := rfl

theorem Station.passExit_touched (st : Station) (f : Field) : st.passExit { f with touched := true } = st.passExit f := rfl

/-- Only the stations, the release queue and the attention register differ, and sound sheets stay sound. -/
def State.StationStep (s t : State) : Prop :=
  t = { s with stations := t.stations, rq := t.rq, causes := t.causes } ∧ (s.SheetsSound → t.SheetsSound)

namespace State.StationStep

theorem refl (s : State) : s.StationStep s := ⟨rfl, id⟩

theorem trans {a b c : State} (h : a.StationStep b) (k : b.StationStep c) : a.StationStep c :=
  ⟨by rw [k.1, h.1], k.2 ∘ h.2⟩

theorem setStation (s : State) (n : StationIx) {st : Station} (h : (s.station n).sheet.Sound → st.sheet.Sound) :
    s.StationStep (s.setStation n st) := by
  refine ⟨rfl, fun hs m => ?_⟩
  rw [State.station_setStation]
  split
  · exact h (hs n)
  · exact hs m

theorem onStation (s : State) (n : StationIx) {f : Station → Station}
    (h : (s.station n).sheet.Sound → (f (s.station n)).sheet.Sound) : s.StationStep (s.onStation n f) :=
  setStation s n h

/-- A change that leaves the sheet. -/
theorem onSheet (s : State) (n : StationIx) {f : Station → Station} (h : (f (s.station n)).sheet = (s.station n).sheet) :
    s.StationStep (s.onStation n f) := onStation s n fun hs => by rw [h]; exact hs

theorem withQueue (s : State) (q : ReleaseQueue) : s.StationStep { s with rq := q } := ⟨rfl, id⟩

theorem raise (s : State) (n : StationIx) (bits : Byte) : s.StationStep (s.raise n bits) := ⟨rfl, id⟩

theorem classes {s t : State} (h : s.StationStep t) : t.classes = s.classes := by rw [h.1]
theorem store {s t : State} (h : s.StationStep t) : t.store = s.store := by rw [h.1]
theorem answer {s t : State} (h : s.StationStep t) : t.answer = s.answer := by rw [h.1]
theorem pending {s t : State} (h : s.StationStep t) : t.pending = s.pending := by rw [h.1]
theorem keyMaps {s t : State} (h : s.StationStep t) : t.keyMaps = s.keyMaps := by rw [h.1]
theorem unitAddr {s t : State} (h : s.StationStep t) : t.unitAddr = s.unitAddr := by rw [h.1]
theorem receiver {s t : State} (h : s.StationStep t) : t.receiver = s.receiver := by rw [h.1]
theorem quietLeft {s t : State} (h : s.StationStep t) : t.quietLeft = s.quietLeft := by rw [h.1]
theorem refusals {s t : State} (h : s.StationStep t) : t.refusals = s.refusals := by rw [h.1]

/-! ### Releases (R125 to R140) -/

theorem enqueue (s : State) (e : RoomEntry) : s.StationStep (s.enqueue e) :=
  (withQueue s _).trans (onSheet _ _ (Station.setInput_sheet _ _))

theorem awaitRoom (s : State) (e : RoomEntry) : s.StationStep (s.awaitRoom e) :=
  (withQueue s _).trans (onSheet _ _ (Station.setInput_sheet _ _))

theorem placeRelease (s : State) (n : StationIx) (code : Byte) (pri : Priority) (full : Bool) :
    s.StationStep (s.placeRelease n code pri full) := by
  unfold State.placeRelease
  dsimp only
  split
  · exact enqueue s _
  · exact awaitRoom s _

theorem release (s : State) (n : StationIx) (code : Byte) (pri : Priority) (full : Bool) :
    s.StationStep (s.release n code pri full) := by
  unfold State.release
  cases hc : (s.station n).releaseChecks s.classes full with
  | error st => exact setStation s n fun h => (Station.releaseChecks_sound h s.classes full).2 st hc
  | ok st =>
    exact (setStation s n fun h => (Station.releaseChecks_sound h s.classes full).1 st hc).trans
      (placeRelease _ _ _ _ _)

theorem serveList (es : List RoomEntry) (s : State) : s.StationStep (State.serveList es s) := by
  induction es generalizing s with
  | nil => exact withQueue s _
  | cons e es ih =>
    unfold State.serveList
    split
    · exact (enqueue s e).trans (ih _)
    · exact withQueue s _

theorem serve (s : State) : s.StationStep s.serve := serveList _ s

theorem discardRelease (s : State) (n : StationIx) : s.StationStep (s.discardRelease n) :=
  (withQueue s _).trans (serve _)

theorem completeRelease (s : State) (n : StationIx) : s.StationStep (s.completeRelease n) :=
  ((withQueue s _).trans (onSheet _ _ (Station.setInput_sheet _ _))).trans (serve _)

/-! ### Actions and keys (R73 to R89) -/

theorem process (s : State) (n : StationIx) (a : Action) : s.StationStep (s.process n a) := by
  cases a with
  | char c => exact onStation s n (f := fun st => st.charAction s.classes c) fun h => Station.charAction_sound h _ c
  | move m => exact onStation s n (f := fun st => st.moveAction s.classes m) fun h => Station.moveAction_sound h _ m
  | edit e => exact onStation s n (f := fun st => st.editAction s.classes e) fun h => Station.editAction_sound h _ e
  | release code => exact release s n _ _ _
  | releaseShort code => exact release s n _ _ _
  | releaseUrgent code => exact release s n _ _ _
  | signal => exact raise s n _
  | reset => exact refl s
  | none => exact refl s
  | shift => exact refl s
  | alt => exact refl s

theorem typeAheadAppend (s : State) (n : StationIx) (a : Action) : s.StationStep (s.typeAheadAppend n a) := by
  unfold State.typeAheadAppend
  split
  · exact onSheet s n rfl
  · exact (onSheet s n (by simp)).trans (raise _ _ _)

theorem replayOne (s : State) (n : StationIx) (a : Action) (rest : List Action) :
    s.StationStep (s.replayOne n a rest) :=
  (onSheet s n rfl).trans (process _ _ _)

theorem replayList (n : StationIx) (as : List Action) (s : State) : s.StationStep (State.replayList n as s) := by
  induction as generalizing s with
  | nil => exact refl s
  | cons a as ih =>
    unfold State.replayList
    split
    · exact (replayOne s n a as).trans (ih _)
    · exact refl s

theorem replay (s : State) (n : StationIx) : s.StationStep (s.replay n) := replayList n _ s

theorem resetHeld (s : State) (n : StationIx) : s.StationStep (s.onStation n Station.resetHeld) :=
  onStation s n fun h => by
    unfold Station.resetHeld
    rw [Station.setInput_sheet]
    exact Station.setInsert_sound h false

theorem route (s : State) (n : StationIx) (a : Action) : s.StationStep (s.route n a) := by
  unfold State.route
  split
  · exact process s n _
  · split
    · exact resetHeld s n
    · split
      · exact typeAheadAppend s n _
      · exact process s n _
    · exact onSheet s n rfl
  · split
    · exact onSheet s n (Station.requestAlarm_sheet _)
    · split
      · exact typeAheadAppend s n _
      · exact process s n _
    · exact typeAheadAppend s n _

theorem takeAction (s : State) (n : StationIx) (code : Byte) (a : Action) : s.StationStep (s.takeAction n code a) := by
  unfold State.takeAction
  split
  · exact onSheet s n rfl
  · exact onSheet s n rfl
  · exact onSheet s n rfl
  · exact (onSheet s n rfl).trans (route _ _ _)

theorem keyDown (s : State) (n : StationIx) (code : Byte) (time : Nat) : s.StationStep (s.keyDown n code time) := by
  unfold State.keyDown
  split
  · exact onSheet s n rfl
  · exact (onSheet s n (by unfold Station.unsuppress; split <;> rfl)).trans (takeAction _ _ _ _)

theorem keyUp (s : State) (n : StationIx) (code : Byte) (time : Nat) :
    s.StationStep (s.onStation n fun st => st.keyUp code time) :=
  onSheet s n (by unfold Station.keyUp; split <;> rfl)

theorem repeatExpiry (s : State) (n : StationIx) : s.StationStep (s.repeatExpiry n) := by
  unfold State.repeatExpiry
  split
  · exact refl s
  · split
    · exact (onSheet s n rfl).trans (process _ _ _)
    · exact onSheet s n rfl

/-! ### Scans (R115 to R123) -/

theorem scanRelease (s : State) (n : StationIx) : s.StationStep (s.scanRelease n) := by
  unfold State.scanRelease
  split
  · exact refl s
  · exact release s n _ _ _

theorem takeScan (s : State) (n : StationIx) (sc : Scan) : s.StationStep (s.takeScan n sc) := by
  unfold State.takeScan
  split
  · exact onSheet s n (by simp [Station.rejectScan])
  · rename_i f hf
    obtain ⟨hmem, -⟩ := Sheet.scanField_spec hf
    obtain ⟨hplaced, hedited⟩ := Station.placeScan_field (tu := s.classes) (sc := sc) hmem
    dsimp only
    split
    · refine setStation s n fun h => ?_
      rw [← Station.failCheck_touched]
      exact Station.failCheck_sound (Station.placeScan_sound h hf) hplaced (.inr hedited) _
    · refine (setStation s n fun h => Station.scanAdvance_sound ?_ _).trans (scanRelease _ _)
      rw [← Station.passExit_touched]
      exact Station.passExit_sound (Station.placeScan_sound h hf) hplaced

theorem closeScan (s : State) (n : StationIx) : s.StationStep (s.closeScan n) := by
  unfold State.closeScan
  split
  · exact refl s
  · exact ((onSheet s n (Station.dropScan_sheet _)).trans (takeScan _ _ _)).trans (replay _ _)

theorem scanChar (s : State) (n : StationIx) (c : Byte) : s.StationStep (s.scanChar n c) := by
  unfold State.scanChar
  split
  · split
    · exact refl s
    · split
      · exact onSheet s n (by simp [Station.openScan])
      · exact onSheet s n (by simp [Station.rejectChar])
  · split
    · exact closeScan s n
    · exact onSheet s n rfl

/-! ### Links (R24 to R29, R193) -/

theorem silenceExpiry (s : State) (n : StationIx) : s.StationStep (s.silenceExpiry n) := by
  unfold State.silenceExpiry
  split
  · exact (onSheet s n rfl).trans (raise _ _ _)
  · exact refl s

theorem signOfLife (s : State) (n : StationIx) : s.StationStep (s.signOfLife n) := by
  unfold State.signOfLife
  split
  · exact (onSheet s n (by simp [Station.attach])).trans (raise _ _ _)
  · exact onSheet s n rfl
  · exact refl s

theorem dropRx (s : State) (n : StationIx) : s.StationStep (s.onStation n Station.dropRx) := onSheet s n rfl

theorem keyMessage (s : State) (n : StationIx) (code : Byte) (down : Bool) (time : Nat) :
    s.StationStep (s.keyMessage n code down time) := by
  unfold State.keyMessage
  split
  · split
    · split
      · exact (signOfLife s n).trans (keyDown _ _ _ _)
      · exact (signOfLife s n).trans (keyUp _ _ _ _)
    · exact dropRx s n
  · exact refl s

theorem scanMessage (s : State) (n : StationIx) (c : Byte) : s.StationStep (s.scanMessage n c) := by
  unfold State.scanMessage
  split
  · exact (signOfLife s n).trans (scanChar _ _ _)
  · exact refl s

theorem pauseMessage (s : State) (n : StationIx) (f : Bool) : s.StationStep (s.pauseMessage n f) := by
  unfold State.pauseMessage
  split
  · exact (signOfLife s n).trans (onSheet _ n rfl)
  · exact refl s

theorem leadByte (s : State) (n : StationIx) (b : Byte) : s.StationStep (s.leadByte n b) := by
  unfold State.leadByte
  split
  · exact onSheet s n rfl
  · exact onSheet s n rfl
  · exact pauseMessage s n _
  · exact pauseMessage s n _
  · exact signOfLife s n
  · exact refl s

theorem nextByte (s : State) (n : StationIx) (part : LinkPart) (b : Byte) (time : Nat) :
    s.StationStep (s.nextByte n part b time) := by
  unfold State.nextByte
  split
  · split
    · exact onSheet s n rfl
    · exact dropRx s n
  · split
    · exact keyMessage s n _ _ _
    · exact keyMessage s n _ _ _
    · exact dropRx s n
  · exact scanMessage s n b

theorem linkByte (s : State) (n : StationIx) (b : Byte) (parityOk : Bool) (time : Nat) :
    s.StationStep (s.linkByte n b parityOk time) := by
  unfold State.linkByte
  split
  · split
    · split
      · exact leadByte s n b
      · exact nextByte s n _ b time
    · exact dropRx s n
  · exact refl s

theorem probeExpiry (s : State) (n : StationIx) : s.StationStep (s.onStation n Station.probeExpiry) :=
  onSheet s n (by unfold Station.probeExpiry; split <;> rfl)

theorem startMessage (s : State) (n : StationIx) : s.StationStep (s.onStation n Station.startMessage) := by
  refine onSheet s n ?_
  unfold Station.startMessage Station.startLine
  split
  · split
    · rfl
    · split
      · rfl
      · split
        · rfl
        · split <;> rfl
  · rfl

theorem completeMessage (s : State) (n : StationIx) : s.StationStep (s.onStation n Station.completeMessage) :=
  onSheet s n (by unfold Station.completeMessage; split <;> rfl)

/-! ### Requests of the host (chapters 3 and 10) -/

theorem disable (s : State) (n : StationIx) (p : Profile) : s.StationStep (s.disable n p) := by
  unfold State.disable
  split
  · exact (discardRelease s n).trans (onStation _ n fun _ => Station.atReset_sheet_sound)
  · exact onStation s n fun _ => Station.atReset_sheet_sound

theorem setup (s : State) (n : StationIx) (p : Profile) : s.StationStep (s.setup n p) := by
  unfold State.setup
  split
  · exact onStation s n fun _ => Station.atReset_sheet_sound
  · exact onSheet s n rfl
  · exact onSheet s n rfl
  · exact disable s n p

theorem broadcast (s : State) (chars : List Byte) : s.StationStep (s.broadcast chars) := by
  refine ⟨rfl, fun hs n => ?_⟩
  have h : (s.broadcast chars).station n =
      if (s.station n).reached then (s.station n).setMessage (chars.map toPrintable) else s.station n := by
    simp only [State.broadcast, State.station, Fin.getElem_fin, Vector.getElem_map]
    rfl
  rw [h]
  split
  · rw [Station.setMessage_sheet]; exact hs n
  · exact hs n

theorem lockStep_sheet (st : Station) (flags : Byte) : (st.lockStep flags).sheet = st.sheet := by
  unfold Station.lockStep
  split
  · rfl
  · rfl
  · split
    · exact Station.setInput_sheet _ _
    · split
      · rw [Station.setInput_sheet, Station.dropScan_sheet]
      · rfl

theorem flagsToLock (s : State) (n : StationIx) (flags : Byte) : s.StationStep (s.flagsToLock n flags) := by
  refine onStation s n fun h => ?_
  rw [lockStep_sheet]
  split
  · exact h.untouchAll
  · exact h

theorem applyFlags (s : State) (n : StationIx) (flags : Byte) : s.StationStep (s.applyFlags n flags) := by
  have hreplayed : s.StationStep
      (if (s.station n).replaysOn flags then (s.flagsToLock n flags).replay n else s.flagsToLock n flags) := by
    split
    · exact (flagsToLock s n flags).trans (replay _ n)
    · exact flagsToLock s n flags
  unfold State.applyFlags
  dsimp only
  split
  · exact hreplayed.trans (onSheet _ n (Station.requestAlarm_sheet _))
  · exact hreplayed

theorem beforeDirectives (s : State) (n : StationIx) : s.StationStep (s.beforeDirectives n) := by
  refine trans ?_ (onStation _ n fun h => h.unedited)
  split
  · exact (discardRelease s n).trans (onSheet _ n (Station.setInput_sheet _ _))
  · exact refl s

theorem beforeDirectives_unedited (s : State) (n : StationIx) :
    ((s.beforeDirectives n).station n).sheet.edited = none := by
  unfold State.beforeDirectives
  rw [State.station_onStation_same]
  rfl

theorem applyWrite (s : State) (n : StationIx) (flags : Byte) {ds : List (Nat × Directive)}
    (hds : ∀ d ∈ ds, d.2.InRange) : s.StationStep (s.applyWrite n flags ds).2 := by
  have hstream : s.StationStep ((s.beforeDirectives n).setStation n
      (applyStream (s.beforeDirectives n).store ds ⟨0, 0, 0⟩ ((s.beforeDirectives n).station n)).2.2) :=
    (beforeDirectives s n).trans (setStation _ n fun h =>
      applyStream_sound h (beforeDirectives_unedited s n) hds)
  unfold State.applyWrite
  dsimp only
  split
  · rename_i happly
    rw [happly] at hstream
    exact hstream
  · rename_i happly
    rw [happly] at hstream
    exact hstream.trans (applyFlags _ n flags)

theorem handleWrite (n : StationIx) (payload : List Byte) (s : State) :
    s.StationStep (handleWrite n payload s).2 := by
  unfold Machine.handleWrite
  split
  · exact refl s
  · split
    · exact refl s
    · split
      · exact refl s
      · split
        · exact refl s
        · rename_i hw
          exact applyWrite s n _ (walkStream_inRange hw)

end State.StationStep

end Sys2Proof.Machine
end

section
/-! SUPPORT. What a step can do, said once: every command comes down to one of a few kinds of change, and a property
that each of these keeps is kept by every step. -/

namespace Sys2Proof.Machine

/-! ### The host line (R167 to R174) -/

/-- Only the receiver, the quiet timer, the answer and the line counters differ; a RELEASE in flight is one that was in
flight before. -/
def State.LineStep (s t : State) : Prop :=
  t = { s with
          receiver := t.receiver, quietLeft := t.quietLeft, answer := t.answer, checkFails := t.checkFails
          framingErrors := t.framingErrors, refusals := t.refusals } ∧
    ∀ a ∈ t.answer, a.kind = .release →
      ∃ b ∈ s.answer, b.kind = .release ∧ b.station = a.station ∧ b.payload = a.payload

/-- Everything the receipt of bytes or frames can do: a change of the line alone, or the handling of a frame that
dispatch accepted, with its answer. -/
def State.Receives (s t : State) : Prop :=
  s.LineStep t ∨ ∃ (u : State) (k : DownKind) (st : Byte) (p : List Byte),
    s.LineStep u ∧ u.answer = none ∧ (u.store.phase = .running ∨ k = .status) ∧
      t = (u.handle k st p).2.respond st (u.handle k st p).1

namespace State.LineStep

theorem refl (s : State) : s.LineStep s := ⟨rfl, fun a ha hk => ⟨a, ha, hk, rfl, rfl⟩⟩

theorem trans {a b c : State} (h : a.LineStep b) (k : b.LineStep c) : a.LineStep c := by
  refine ⟨by rw [k.1, h.1], fun x hx hk => ?_⟩
  obtain ⟨y, hy, hyk, hys, hyp⟩ := k.2 x hx hk
  obtain ⟨z, hz, hzk, hzs, hzp⟩ := h.2 y hy hyk
  exact ⟨z, hz, hzk, hzs.trans hys, hzp.trans hyp⟩

/-- A change that leaves no answer in flight. -/
theorem unanswered {s t : State}
    (h : t = { s with
                 receiver := t.receiver, quietLeft := t.quietLeft, answer := t.answer, checkFails := t.checkFails
                 framingErrors := t.framingErrors, refusals := t.refusals }) (ha : t.answer = none) : s.LineStep t :=
  ⟨h, fun a hx => by rw [ha] at hx; cases hx⟩

/-- A change that leaves the answer in flight as it is. -/
theorem sameAnswer {s t : State}
    (h : t = { s with
                 receiver := t.receiver, quietLeft := t.quietLeft, answer := t.answer, checkFails := t.checkFails
                 framingErrors := t.framingErrors, refusals := t.refusals }) (ha : t.answer = s.answer) :
    s.LineStep t := ⟨h, fun a hx hk => ⟨a, ha ▸ hx, hk, rfl, rfl⟩⟩

theorem byteSeen (s : State) : s.LineStep s.byteSeen := unanswered rfl rfl

theorem hunt (s : State) : s.LineStep s.hunt := sameAnswer rfl rfl

theorem abortFrame (s : State) : s.LineStep s.abortFrame := sameAnswer rfl rfl

/-- An answer that is no RELEASE. -/
theorem respond (s : State) (st : Byte) {r : Reply} (hr : r.kind ≠ .release) : s.LineStep (s.respond st r) :=
  ⟨rfl, fun a ha hk => by cases ha; exact absurd hk hr⟩

theorem failCheck (s : State) (st : Byte) : s.LineStep (s.failCheck st) :=
  ⟨rfl, fun a ha hk => by cases ha; cases hk⟩

theorem store {s t : State} (h : s.LineStep t) : t.store = s.store := by rw [h.1]
theorem stations {s t : State} (h : s.LineStep t) : t.stations = s.stations := by rw [h.1]
theorem rq {s t : State} (h : s.LineStep t) : t.rq = s.rq := by rw [h.1]
theorem keyMaps {s t : State} (h : s.LineStep t) : t.keyMaps = s.keyMaps := by rw [h.1]
theorem pending {s t : State} (h : s.LineStep t) : t.pending = s.pending := by rw [h.1]
theorem station {s t : State} (h : s.LineStep t) (n : StationIx) : t.station n = s.station n := by
  unfold State.station; rw [h.stations]

end State.LineStep

/-- R174: a dispatched frame is refused or handled. -/
theorem State.answerFrame_receives {s u : State} (h : s.LineStep u) (ha : u.answer = none) (kind st : Byte)
    (p : List Byte) : s.Receives (u.answerFrame kind st p) := by
  unfold State.answerFrame State.dispatch
  split
  · exact .inl (h.trans (.respond u st fun hk => nomatch hk))
  · rename_i hstart
    split
    · exact .inl (h.trans (.respond u st fun hk => nomatch hk))
    · rename_i k hk
      refine .inr ⟨u, k, st, p, h, ha, ?_, rfl⟩
      cases hphase : u.store.phase with
      | running => exact .inl rfl
      | starting =>
        right
        have hcode : kind = DownKind.status.code := by simpa [hphase] using hstart
        rw [hcode, DownKind.ofByte_code] at hk
        exact (Option.some.inj hk).symm

theorem State.wholeFrame_receives {s u : State} (h : s.LineStep u) (ha : u.answer = none) (body check : List Byte) :
    s.Receives (u.wholeFrame body check) := by
  unfold State.wholeFrame
  split
  · split
    · exact .inl (h.trans (.hunt u))
    · split
      · exact State.answerFrame_receives (h.trans (.hunt u)) ha _ _ _
      · exact .inl ((h.trans (.hunt u)).trans (.failCheck _ _))
  · exact .inl (h.trans (.hunt u))

theorem State.frameBytes_receives {s u : State} (h : s.LineStep u) (ha : u.answer = none) (bytes : List Byte) :
    s.Receives (u.frameBytes bytes) := by
  unfold State.frameBytes
  split
  · exact .inl (h.trans (.sameAnswer rfl rfl))
  · split
    · exact .inl (h.trans (.abortFrame u))
    · split
      · exact .inl (h.trans (.sameAnswer rfl rfl))
      · exact State.wholeFrame_receives h ha _ _

theorem State.abortingByte_lineStep (s : State) : s.LineStep s.abortingByte := by
  unfold State.abortingByte
  split
  · exact .byteSeen s
  · exact (State.LineStep.byteSeen s).trans (.abortFrame _)

theorem State.advanceAnswer_lineStep (s : State) : s.LineStep s.advanceAnswer := by
  refine ⟨rfl, fun a ha hk => ?_⟩
  obtain ⟨b, hb, rfl⟩ := Option.map_eq_some_iff.mp ha
  exact ⟨b, hb, hk, rfl, rfl⟩

/-- R167, R168, R172: a byte on the host line. -/
theorem State.takeByte_receives (s : State) (b : Byte) (badStop : Bool) : s.Receives (s.takeByte b badStop) := by
  unfold State.takeByte
  split
  · exact .inl s.advanceAnswer_lineStep
  · split
    · exact .inl s.abortingByte_lineStep
    · unfold State.goodByte
      split
      · split
        · exact .inl (.unanswered rfl rfl)
        · exact .inl (.byteSeen s)
      · exact State.frameBytes_receives (.byteSeen s) rfl _

theorem State.takeWhole_receives {s : State} {taken : State → State}
    (h : ∀ u, s.LineStep u → u.answer = none → s.Receives (taken u)) : s.Receives (s.takeWhole taken) := by
  have hseen : s.LineStep s.byteSeen.hunt := (State.LineStep.byteSeen s).trans (.hunt _)
  unfold State.takeWhole
  split
  · exact .inl hseen
  · exact h _ hseen rfl

theorem State.takeFrame_receives (s : State) (kind st : Byte) (p : List Byte) : s.Receives (s.takeFrame kind st p) := by
  refine State.takeWhole_receives fun u h ha => ?_
  split
  · exact .inl (h.trans (.abortFrame u))
  · exact State.answerFrame_receives h ha kind st p

theorem State.gapTimeout_lineStep (s : State) : s.LineStep s.gapTimeout := by
  unfold State.gapTimeout
  split
  · exact .refl s
  · exact .sameAnswer rfl rfl

theorem State.startSending_lineStep (s : State) : s.LineStep s.startSending := by
  unfold State.startSending
  split
  · exact .refl s
  · rename_i a ha
    split
    · exact .refl s
    · refine ⟨rfl, fun b hb hk => ?_⟩
      cases hb
      exact ⟨a, ha, hk, rfl, rfl⟩

/-! ### The station side (chapters 2, 4, 6) -/

/-- What the commands and the timers of a station link come down to. -/
inductive LinkOp where
  | key (code : Byte) (down : Bool) (time : Nat)
  | scan (char : Byte)
  | pause (flag : Bool)
  | present
  | expect (part : LinkPart)
  | dropRx
  | silence
  | rep
  | gap
  | probe
  | start
  | complete

def LinkOp.apply (s : State) (n : StationIx) : LinkOp → State
  | .key code down time => s.keyMessage n code down time
  | .scan c => s.scanMessage n c
  | .pause f => s.pauseMessage n f
  | .present => s.presentMessage n
  | .expect part => if s.listens n then s.onStation n fun st => st.expect part else s
  | .dropRx => s.onStation n Station.dropRx
  | .silence => s.silenceExpiry n
  | .rep => s.repeatExpiry n
  | .gap => s.closeScan n
  | .probe => s.onStation n Station.probeExpiry
  | .start => s.onStation n Station.startMessage
  | .complete => s.onStation n Station.completeMessage

theorem LinkOp.stationStep (s : State) (n : StationIx) (op : LinkOp) : s.StationStep (op.apply s n) := by
  cases op with
  | key code down time => exact .keyMessage s n code down time
  | scan c => exact .scanMessage s n c
  | pause f => exact .pauseMessage s n f
  | present => exact .signOfLife s n
  | expect part =>
    unfold LinkOp.apply
    dsimp only
    split
    · exact .onSheet s n rfl
    · exact .refl s
  | dropRx => exact .dropRx s n
  | silence => exact .silenceExpiry s n
  | rep => exact .repeatExpiry s n
  | gap => exact .closeScan s n
  | probe => exact .probeExpiry s n
  | start => exact .startMessage s n
  | complete => exact .completeMessage s n

/-- R193: a byte from a terminal changes nothing or comes down to one of them. -/
theorem State.linkByte_cases (s : State) (n : StationIx) (b : Byte) (parityOk : Bool) (time : Nat) :
    s.linkByte n b parityOk time = s ∨ ∃ op : LinkOp, s.linkByte n b parityOk time = op.apply s n := by
  unfold State.linkByte
  split
  · rename_i hl
    have hexpect (part : LinkPart) : (s.onStation n fun st => st.expect part) = LinkOp.apply s n (.expect part) := by
      rw [LinkOp.apply, if_pos hl]
    split
    · split
      · unfold State.leadByte
        split
        · exact .inr ⟨_, hexpect _⟩
        · exact .inr ⟨_, hexpect _⟩
        · exact .inr ⟨.pause true, rfl⟩
        · exact .inr ⟨.pause false, rfl⟩
        · exact .inr ⟨.present, rfl⟩
        · exact .inl rfl
      · unfold State.nextByte
        split
        · split
          · exact .inr ⟨_, hexpect _⟩
          · exact .inr ⟨.dropRx, rfl⟩
        · split
          · exact .inr ⟨.key _ false time, rfl⟩
          · exact .inr ⟨.key _ true time, rfl⟩
          · exact .inr ⟨.dropRx, rfl⟩
        · exact .inr ⟨.scan b, rfl⟩
    · exact .inr ⟨.dropRx, rfl⟩
  · exact .inl rfl

theorem State.expire_eq (s : State) (n : StationIx) (k : Timer) : ∃ op : LinkOp, s.expire n k = op.apply s n := by
  cases k
  · exact ⟨.silence, rfl⟩
  · exact ⟨.probe, rfl⟩
  · exact ⟨.rep, rfl⟩
  · exact ⟨.gap, rfl⟩
  · exact ⟨.dropRx, rfl⟩

/-! ### Commands and steps -/

/-- What a command can do to the state. -/
inductive State.Runs (s : State) : State → Prop
  | line {t : State} (h : s.LineStep t) : Runs s t
  | handled {u : State} (h : s.LineStep u) (ha : u.answer = none) (k : DownKind) (st : Byte) (p : List Byte)
      (hk : u.store.phase = .running ∨ k = .status) :
      Runs s ((u.handle k st p).2.respond st (u.handle k st p).1)
  | reset {u : State} (h : s.LineStep u) (unitAddr : Byte) (lineRate : BitVec 2) :
      Runs s (u.afterReset unitAddr lineRate)
  | released {a : Answer} {n : StationIx} (ha : s.answer = some a) (hk : a.kind = .release)
      (hn : stationOf a.station = some n) : Runs s (s.byteSeen.completeRelease n)
  | scanned : Runs s s.scanComplete
  | row (success : Bool) : Runs s (s.rowComplete success)
  | erased (success : Bool) : Runs s (s.eraseComplete success)
  | control (success : Bool) : Runs s (s.controlComplete success)
  | link (n : StationIx) (op : LinkOp) : Runs s (op.apply s n)

theorem State.Receives.runs {s t : State} (h : s.Receives t) : s.Runs t := by
  rcases h with h | ⟨u, k, st, p, hu, ha, hk, rfl⟩
  · exact .line h
  · exact .handled hu ha k st p hk

/-- R173: the completion of an answer. -/
theorem State.completeAnswer_runs (s : State) : s.Runs s.completeAnswer := by
  unfold State.completeAnswer
  split
  · exact .line (.refl s)
  · rename_i a ha
    split
    · unfold State.handOn
      split
      · rename_i hk
        split
        · rename_i n hn
          exact .released ha hk hn
        · exact .line (.byteSeen s)
      · split
        · exact .reset (.byteSeen s) _ _
        · exact .line (.byteSeen s)
    · exact .line (.refl s)

theorem exec_runs {c : Instr} {s t : State} (h : exec c s = .next t) : s.Runs t := by
  have received {k st : Byte} {p : List Byte} (h : Host.Outcome.next (s.takeFrame k st p) =
      (.next t : Host.Outcome State Fault Refusal)) : s.Runs t := by
    cases h
    exact (s.takeFrame_receives k st p).runs
  cases c
  case powerOnReset unit rate => cases h; exact .reset (.refl s) _ _
  case mark => cases h; exact (s.takeByte_receives _ _).runs
  case quietTimerExpiry =>
    cases h
    refine .line ?_
    split
    · exact .refl s
    · exact .sameAnswer rfl rfl
  case frameAbort =>
    change execFrameAbort s = .next t at h
    unfold execFrameAbort at h
    split at h <;> cases h
    · exact .line (.refl s)
    · exact .line s.abortingByte_lineStep
  case frameGapTimeout => cases h; exact .line s.gapTimeout_lineStep
  case checkFail st =>
    cases h
    exact (State.takeWhole_receives fun u h _ => .inl (h.trans (.failCheck u st))).runs
  case unknownKind => exact received h
  case answerSendStart => cases h; exact .line s.startSending_lineStep
  case answerAbandoned b badStop =>
    cases h
    split
    · exact .line (.refl s)
    · exact (s.takeByte_receives b badStop).runs
  case answerComplete => cases h; exact s.completeAnswer_runs
  case startUpScanComplete => cases h; exact .scanned
  case rowProgramComplete success => cases h; exact .row success
  case slotEraseComplete success => cases h; exact .erased success
  case controlUpdateComplete success => cases h; exact .control success
  case keyDown n code time => cases h; exact .link n (.key code true time)
  case keyUp n code time => cases h; exact .link n (.key code false time)
  case scanch n c => cases h; exact .link n (.scan c)
  case pause n => cases h; exact .link n (.pause true)
  case resume n => cases h; exact .link n (.pause false)
  case present n => cases h; exact .link n .present
  case linkByteTimeout n => cases h; exact .link n .dropRx
  case silenceTimerExpiry n => cases h; exact .link n .silence
  case repeatTimerExpiry n => cases h; exact .link n .rep
  case gapTimerExpiry n => cases h; exact .link n .gap
  case probeTimerExpiry n => cases h; exact .link n .probe
  case startMessage n => cases h; exact .link n .start
  case messageComplete n => cases h; exact .link n .complete
  case frameForOtherUnit => cases h; exact (State.takeWhole_receives fun u h _ => .inl h).runs
  case hostLineByte b badStop => cases h; exact (s.takeByte_receives b badStop).runs
  case linkByte n b parityOk time =>
    cases h
    rcases s.linkByte_cases n b parityOk time with h | ⟨op, h⟩ <;> rw [h]
    · exact .line (.refl s)
    · exact .link n op
  all_goals exact received h

/-- R167, R169: the line's part of a millisecond. -/
theorem State.countLine_lineStep (s : State) : s.LineStep s.countQuiet.countGap := by
  have hquiet : s.LineStep s.countQuiet := by
    unfold State.countQuiet
    split
    · exact .refl s
    · exact .sameAnswer rfl rfl
  refine hquiet.trans ?_
  unfold State.countGap
  split
  · exact .refl _
  · split
    · exact State.gapTimeout_lineStep _
    · exact .sameAnswer rfl rfl

/-- A property that the link operations keep holds after the expiries of a millisecond. -/
theorem State.expireDue_keeps {I : State → Prop} (hlink : ∀ s n (op : LinkOp), I s → I (op.apply s n)) {s : State}
    (h : I s) (es : List (StationIx × Timer)) : I (es.foldl State.expireDue s) := by
  induction es generalizing s with
  | nil => exact h
  | cons e es ih =>
    refine ih ?_
    unfold State.expireDue
    split
    · obtain ⟨op, hop⟩ := s.expire_eq e.1 e.2
      rw [hop]
      exact hlink s e.1 op h
    · exact h

/-- A property that every command and every millisecond at the stations keep is kept by every step; the waiting commands
and the counter of free values are the model's own. -/
theorem step_keeps {I : State → Prop}
    (hown : ∀ (s : State) (pending : List Instr) (k : Nat), I s → I { s with pending := pending, freeCount := k })
    (hruns : ∀ s t : State, I s → s.Runs t → I t) (hcount : ∀ s : State, I s → I s.countStations) {s t : State}
    (hs : I s) (h : step s = .next t) : I t := by
  unfold step at h
  split at h
  · cases h
    have hline : I s.countQuiet.countGap := hruns s _ hs (.line s.countLine_lineStep)
    have hcounted := hcount _ hline
    exact State.expireDue_keeps (fun u n op hu => hruns u _ hu (.link n op))
      (hown _ s.countQuiet.countGap.countStations.pending _ hcounted) _
  · rename_i c rest _
    exact hruns _ t (hown s rest s.freeCount hs) (exec_runs h)

end Sys2Proof.Machine
end

section
/-! SUPPORT. What the handling of a frame can do, and the invariant of the sheets. -/

namespace Sys2Proof.Machine

/-- Of the state only the tables, the store and the attention register differ: the stations and the release queue are as
they were, and so is the line. -/
def State.ControlStep (s t : State) : Prop :=
  t = { s with
          classes := t.classes, keyMaps := t.keyMaps, store := t.store, causes := t.causes
          stationMask := t.stationMask, ctlMask := t.ctlMask }

theorem State.ControlStep.refl (s : State) : s.ControlStep s := rfl

theorem State.ControlStep.station {s t : State} (h : s.ControlStep t) (n : StationIx) :
    t.station n = s.station n := by rw [h]; rfl

theorem toStation_keeps {P : State → Prop} {st : Byte} {s : State} {handle : StationIx → Reply × State} (hs : P s)
    (h : ∀ n, P (handle n).2) : P (toStation st s handle).2 := by
  unfold toStation
  split
  · exact h _
  · exact hs

theorem toController_keeps {P : State → Prop} {st : Byte} {s : State} {handled : Reply × State} (hs : P s)
    (h : P handled.2) : P (toController st s handled).2 := by
  unfold toController
  split
  · exact h
  · exact hs

/-! ### Handlings that read (chapters 7 and 10) -/

theorem handlePoll_state (n : Option StationIx) (p : List Byte) (s : State) : (handlePoll n p s).2 = s := by
  unfold handlePoll; split <;> rfl

theorem handleReadForm_state (n : StationIx) (p : List Byte) (s : State) : (handleReadForm n p s).2 = s := by
  unfold handleReadForm
  split
  · split <;> rfl
  · rfl

theorem handleStatus_state (p : List Byte) (s : State) : (handleStatus p s).2 = s := by
  unfold handleStatus; split <;> rfl

theorem handleStationRead_state (p : List Byte) (s : State) : (handleStationRead p s).2 = s := by
  unfold handleStationRead
  split
  · split <;> rfl
  · rfl

theorem handleAttentionRead_state (p : List Byte) (s : State) : (handleAttentionRead p s).2 = s := by
  unfold handleAttentionRead; split <;> rfl

theorem handleCountersRead_state (p : List Byte) (s : State) : (handleCountersRead p s).2 = s := by
  unfold handleCountersRead; split <;> rfl

theorem handleDirectoryRead_state (p : List Byte) (s : State) : (handleDirectoryRead p s).2 = s := by
  unfold handleDirectoryRead; split <;> rfl

theorem handleRestart_state (p : List Byte) (s : State) : (handleRestart p s).2 = s := by
  unfold handleRestart; split <;> rfl

/-! ### Handlings that change the stations -/

theorem handleStationSetup_stationStep (p : List Byte) (s : State) : s.StationStep (handleStationSetup p s).2 := by
  unfold handleStationSetup
  split
  · split
    · exact .refl s
    · split
      · split
        · exact .refl s
        · exact .setup s _ _
      · exact .refl s
  · exact .refl s

theorem handleBroadcast_stationStep (p : List Byte) (s : State) : s.StationStep (handleBroadcast p s).2 := by
  unfold handleBroadcast
  split
  · exact .refl s
  · exact .broadcast s p

/-! ### Handlings that change the tables and the store -/

theorem handleClassSet_controlStep (p : List Byte) (s : State) : s.ControlStep (handleClassSet p s).2 := by
  unfold handleClassSet
  split
  · split
    · split
      · exact rfl
      · unfold State.setClass
        split <;> exact rfl
    · exact rfl
  · exact rfl

theorem handleKeymapSet_controlStep (p : List Byte) (s : State) : s.ControlStep (handleKeymapSet p s).2 := by
  unfold handleKeymapSet
  repeat' split
  all_goals exact rfl

theorem handleAttentionClear_controlStep (p : List Byte) (s : State) : s.ControlStep (handleAttentionClear p s).2 := by
  unfold handleAttentionClear
  repeat' split
  all_goals exact rfl

theorem handleAttentionMask_controlStep (p : List Byte) (s : State) : s.ControlStep (handleAttentionMask p s).2 := by
  unfold handleAttentionMask
  split <;> exact rfl

/-- A store put in place, the rest as it was. -/
theorem State.ControlStep.setStore (s : State) (st : Store) : s.ControlStep (s.setStore st) := rfl

theorem handleLoadOpen_controlStep (p : List Byte) (s : State) : s.ControlStep (handleLoadOpen p s).2 := by
  unfold handleLoadOpen
  split
  · exact .refl s
  · split
    · exact .refl s
    · split
      · split
        · exact .refl s
        · split
          · exact .refl s
          · exact .setStore s _
      · exact .refl s

theorem handleLoadData_controlStep (p : List Byte) (s : State) : s.ControlStep (handleLoadData p s).2 := by
  unfold handleLoadData
  split
  · exact .refl s
  · split
    · exact .refl s
    · split
      · exact .refl s
      · split
        · exact .refl s
        · split
          · exact .refl s
          · split
            · exact .refl s
            · split
              · exact .refl s
              · exact .setStore s _

theorem handleLoadClose_controlStep (p : List Byte) (s : State) : s.ControlStep (handleLoadClose p s).2 := by
  unfold handleLoadClose
  split
  · exact .refl s
  · split
    · exact .refl s
    · split
      · exact .refl s
      · split
        · split
          · exact .setStore s _
          · exact .setStore s _
        · exact .refl s

theorem handleLoadAbandon_controlStep (p : List Byte) (s : State) : s.ControlStep (handleLoadAbandon p s).2 := by
  unfold handleLoadAbandon
  split
  · exact .refl s
  · split
    · exact .setStore s _
    · exact .refl s

theorem handleEraseSlots_controlStep (p : List Byte) (s : State) : s.ControlStep (handleEraseSlots p s).2 := by
  unfold handleEraseSlots
  dsimp only
  split
  · exact .refl s
  · split
    · exact .refl s
    · split
      · split
        · exact .refl s
        · split
          · exact .refl s
          · split
            · exact rfl
            · exact .setStore s _
      · exact .refl s

theorem handleProtect_controlStep (p : List Byte) (s : State) : s.ControlStep (handleProtect p s).2 := by
  unfold handleProtect
  split
  · exact .refl s
  · split
    · split
      · split
        · exact .refl s
        · split
          · exact .refl s
          · exact .setStore s _
      · exact .refl s
    · exact .refl s

/-- The kinds whose handling changes the stations. -/
def DownKind.changesStations : DownKind → Bool
  | .write => true
  | .stationSetup => true
  | .broadcastMessage => true
  | _ => false

theorem State.handle_stationStep (s : State) {k : DownKind} (hk : k.changesStations = true) (st : Byte)
    (p : List Byte) : s.StationStep (s.handle k st p).2 := by
  cases k <;> cases hk
  case write => exact toStation_keeps (.refl s) fun n => .handleWrite n p s
  case stationSetup => exact toController_keeps (.refl s) (handleStationSetup_stationStep p s)
  case broadcastMessage => exact toController_keeps (.refl s) (handleBroadcast_stationStep p s)

/-- R174: every other handling leaves the stations and the release queue as they were. -/
theorem State.handle_controlStep (s : State) {k : DownKind} (hk : k.changesStations = false) (st : Byte)
    (p : List Byte) : s.ControlStep (s.handle k st p).2 := by
  have same {t : State} (h : t = s) : s.ControlStep t := h ▸ .refl s
  cases k
  case write => cases hk
  case stationSetup => cases hk
  case broadcastMessage => cases hk
  case poll =>
    unfold State.handle
    dsimp only
    split
    · exact same (handlePoll_state _ _ _)
    · exact toStation_keeps (.refl s) fun n => same (handlePoll_state _ _ _)
  case readForm => exact toStation_keeps (.refl s) fun n => same (handleReadForm_state n p s)
  case status => exact toController_keeps (.refl s) (same (handleStatus_state p s))
  case stationRead => exact toController_keeps (.refl s) (same (handleStationRead_state p s))
  case attentionRead => exact toController_keeps (.refl s) (same (handleAttentionRead_state p s))
  case countersRead => exact toController_keeps (.refl s) (same (handleCountersRead_state p s))
  case restart => exact toController_keeps (.refl s) (same (handleRestart_state p s))
  case directoryRead => exact toController_keeps (.refl s) (same (handleDirectoryRead_state p s))
  case classSet => exact toController_keeps (.refl s) (handleClassSet_controlStep p s)
  case keymapSet => exact toController_keeps (.refl s) (handleKeymapSet_controlStep p s)
  case attentionClear => exact toController_keeps (.refl s) (handleAttentionClear_controlStep p s)
  case attentionMask => exact toController_keeps (.refl s) (handleAttentionMask_controlStep p s)
  case loadOpen => exact toController_keeps (.refl s) (handleLoadOpen_controlStep p s)
  case loadData => exact toController_keeps (.refl s) (handleLoadData_controlStep p s)
  case loadClose => exact toController_keeps (.refl s) (handleLoadClose_controlStep p s)
  case loadAbandon => exact toController_keeps (.refl s) (handleLoadAbandon_controlStep p s)
  case eraseSlots => exact toController_keeps (.refl s) (handleEraseSlots_controlStep p s)
  case protect => exact toController_keeps (.refl s) (handleProtect_controlStep p s)

/-! ### Completions of store operations -/

/-- Of the state only the store, the attention register and the counter of free values differ. -/
def State.StoreStep (s t : State) : Prop := t = { s with store := t.store, causes := t.causes, freeCount := t.freeCount }

theorem State.programRow_storeStep (s : State) (job : RowJob) (success : Bool) :
    s.StoreStep (s.programRow job success) := by
  unfold State.programRow
  split <;> exact rfl

theorem State.scanComplete_storeStep (s : State) : s.StoreStep s.scanComplete := by
  unfold State.scanComplete
  split
  · dsimp only
    split <;> exact rfl
  · exact rfl

theorem State.rowComplete_storeStep (s : State) (success : Bool) : s.StoreStep (s.rowComplete success) := by
  unfold State.rowComplete
  split
  · split
    · unfold State.rowSuccess
      repeat' split
      all_goals exact rfl
    · unfold State.rowFailure
      split <;> exact rfl
  · rename_i job _ _
    have h := s.programRow_storeStep job success
    unfold State.StoreStep at h ⊢
    rw [h]
    rfl
  · exact rfl

theorem State.StoreStep.trans {a b c : State} (h : a.StoreStep b) (k : b.StoreStep c) : a.StoreStep c := by
  unfold State.StoreStep at h k ⊢
  rw [k, h]

theorem State.StoreStep.setStore (s : State) (st : Store) : s.StoreStep (s.setStore st) := rfl

theorem State.StoreStep.raiseCtl (s : State) (bits : Byte) : s.StoreStep (s.raiseCtl bits) := rfl

theorem State.eraseOne_storeStep (s : State) (slot : Nat) (success : Bool) :
    s.StoreStep (s.eraseOne slot success) := by
  unfold State.eraseOne
  split
  · exact .setStore s _
  · have hfree : s.StoreStep (s.takeFree 2048).2 := rfl
    exact (hfree.trans (.setStore _ _)).trans (.raiseCtl _ _)

theorem State.eraseComplete_storeStep (s : State) (success : Bool) : s.StoreStep (s.eraseComplete success) := by
  unfold State.eraseComplete
  split
  · rename_i slot _
    dsimp only
    refine (s.eraseOne_storeStep slot success).trans ?_
    split
    · exact .setStore _ _
    · exact (State.StoreStep.setStore _ _).trans (.raiseCtl _ _)
  · exact rfl

theorem State.controlComplete_storeStep (s : State) (success : Bool) : s.StoreStep (s.controlComplete success) := by
  unfold State.controlComplete
  repeat' split
  all_goals exact rfl

theorem State.StoreStep.station {s t : State} (h : s.StoreStep t) (n : StationIx) : t.station n = s.station n := by
  rw [h]; rfl

/-! ### One millisecond at the stations -/

theorem State.station_countStations (s : State) (n : StationIx) :
    s.countStations.station n = (s.station n).countDown := by
  simp only [State.countStations, State.station, Fin.getElem_fin, Vector.getElem_map]

theorem State.station_afterReset (s : State) (a : Byte) (r : BitVec 2) (n : StationIx) :
    (s.afterReset a r).station n = Station.atReset := by
  simp [State.station, State.reset]

/-! ### The sheets -/

theorem State.SheetsSound.of_station {s t : State} (h : ∀ n, t.station n = s.station n) (hs : s.SheetsSound) :
    t.SheetsSound := fun n => by rw [h n]; exact hs n

theorem State.Runs.sheetsSound {s t : State} (hs : s.SheetsSound) (h : s.Runs t) : t.SheetsSound := by
  cases h with
  | line h => exact .of_station h.station hs
  | @handled u h ha k st p hk =>
    have hu : u.SheetsSound := .of_station h.station hs
    have hv : (u.handle k st p).2.SheetsSound := by
      cases hchanges : k.changesStations with
      | true => exact (u.handle_stationStep hchanges st p).2 hu
      | false => exact .of_station (u.handle_controlStep hchanges st p).station hu
    exact .of_station (fun _ => rfl) hv
  | @reset u h a r => exact fun n => (u.station_afterReset a r n).symm ▸ Station.atReset_sheet_sound
  | @released a n ha hk hn => exact (State.StationStep.completeRelease s.byteSeen n).2 hs
  | scanned => exact .of_station s.scanComplete_storeStep.station hs
  | row success => exact .of_station (s.rowComplete_storeStep success).station hs
  | erased success => exact .of_station (s.eraseComplete_storeStep success).station hs
  | control success => exact .of_station (s.controlComplete_storeStep success).station hs
  | link n op => exact (op.stationStep s n).2 hs

/-- Settles O57: each kind of change a step can make keeps every sheet sound. -/
theorem stepKeepsSheetsSound : Obligations.StepKeepsSheetsSound := by
  intro s t hs h
  refine step_keeps (I := fun s => s.SheetsSound) (fun s p k hs => hs) (fun s t hs h => h.sheetsSound hs)
    (fun s hs n => ?_) hs h
  rw [State.station_countStations]
  exact hs n

end Sys2Proof.Machine
end

section
/-! SUPPORT. Sound stations and sound releases: what each change of a station and of the release queue keeps of them
(R23 to R42, R86, R114, R129 to R139). -/

namespace Sys2Proof.Machine

/-! ### A station while its type-ahead queue is replayed -/

/-- A sound station, but that in ENTRY with no scan open the type-ahead queue may hold actions: so a station is while its
queue is replayed (R89). -/
def Station.LooseSound (st : Station) : Prop :=
  st.profile.Sound ∧ (st.typeAhead.length ≤ 32 ∧ (st.input = .held ∨ st.link ≠ .attached → st.typeAhead = [])) ∧
    st.ScanSound ∧ st.RefreshSound ∧ st.DisabledSound ∧ (st.input = .held → st.error.isSome = true)

theorem Station.sound_iff_loose (st : Station) :
    st.Sound ↔ st.LooseSound ∧ (st.input = .entry → st.scan = none → st.typeAhead = []) := by
  constructor
  · rintro ⟨hp, ⟨hlen, hempty⟩, hscan, hdr, hdis, herr⟩
    exact ⟨⟨hp, ⟨hlen, fun h => hempty (h.imp_right .inr)⟩, hscan, hdr, hdis, herr⟩,
      fun he hs => hempty (.inr (.inl ⟨he, hs⟩))⟩
  · rintro ⟨⟨hp, ⟨hlen, hempty⟩, hscan, hdr, hdis, herr⟩, hentry⟩
    refine ⟨hp, ⟨hlen, ?_⟩, hscan, hdr, hdis, herr⟩
    rintro (h | ⟨he, hs⟩ | h)
    · exact hempty (.inl h)
    · exact hentry he hs
    · exact hempty (.inr h)

theorem Station.Sound.loose {st : Station} (h : st.Sound) : st.LooseSound := ((st.sound_iff_loose).mp h).1

/-- Outside ENTRY there is no difference. -/
theorem Station.LooseSound.sound_of_input {st : Station} (h : st.LooseSound) (hi : st.input ≠ .entry) : st.Sound :=
  (st.sound_iff_loose).mpr ⟨h, fun he => absurd he hi⟩

theorem Station.LooseSound.sound_of_empty {st : Station} (h : st.LooseSound) (he : st.typeAhead = []) : st.Sound :=
  (st.sound_iff_loose).mpr ⟨h, fun _ _ => he⟩

theorem Station.LooseSound.enabled {st : Station} (h : st.LooseSound) (hi : st.input ≠ .locked) :
    st.link ≠ .disabled := by
  obtain ⟨-, -, -, -, hdis, -⟩ := h
  intro hl
  apply hi
  rw [hdis hl]
  rfl

/-- A scan is open only in ENTRY. -/
theorem Station.LooseSound.scan_none {st : Station} (h : st.LooseSound) (hi : st.input ≠ .entry) : st.scan = none := by
  obtain ⟨-, -, hscan, -⟩ := h
  cases hs : st.scan with
  | none => rfl
  | some sc => exact absurd (hscan sc hs).1 hi

/-! ### Changes that soundness does not look at -/

/-- The parts of a station on which its soundness rests are the same, but for marks; a repeat starts only on an ATTACHED
link. -/
def Station.Agrees (st st' : Station) : Prop :=
  st' = { st with
            sheet := st'.sheet, message := st'.message, shiftHolders := st'.shiftHolders
            altHolders := st'.altHolders, chatter := st'.chatter, rep := st'.rep, dr := st'.dr
            keysDiscarded := st'.keysDiscarded, scanRejects := st'.scanRejects } ∧
    Refresh.MarkedFrom st.attached st.dr st'.dr ∧ (st.link ≠ .attached → st.rep = none → st'.rep = none)

theorem Station.Edits.agrees {st st' : Station} (h : st.Edits st') : st.Agrees st' :=
  ⟨by rw [h.1], h.2, fun _ hr => by rw [h.1]; exact hr⟩

theorem Station.Writes.agrees {st st' : Station} (h : st.Writes st') : st.Agrees st' :=
  ⟨by rw [h.1], h.2, fun _ hr => by rw [h.1]; exact hr⟩

theorem Station.attached_iff (st : Station) : st.attached = true ↔ st.link = .attached := by
  simp [Station.attached]

theorem Station.attached_false (st : Station) : st.attached = false ↔ st.link ≠ .attached := by
  simp [Station.attached]

/-- Marks leave the display refresh unit sound. -/
theorem Station.RefreshSound.marked {st st' : Station} (h : st.RefreshSound) (hlink : st'.link = st.link)
    (hm : Refresh.MarkedFrom st.attached st.dr st'.dr) (hr : st.link ≠ .attached → st.rep = none → st'.rep = none) :
    st'.RefreshSound := by
  obtain ⟨hsilence, hoff, hprobe⟩ := h
  obtain ⟨hdr, hsame⟩ := hm
  refine ⟨?_, fun hl => ?_, fun hl => ?_⟩
  · rw [hlink, hdr]; exact hsilence
  · rw [hlink] at hl
    rw [hsame ((st.attached_false).mpr hl)]
    obtain ⟨h1, h2, h3, h4, h5, h6⟩ := hoff hl
    exact ⟨h1, h2, h3, h4, hr hl h5, h6⟩
  · rw [hlink] at hl
    rw [hdr]
    exact hprobe hl

theorem Station.LooseSound.agrees {st st' : Station} (h : st.LooseSound) (hl : st.link ≠ .disabled)
    (ha : st.Agrees st') : st'.LooseSound := by
  obtain ⟨hp, htype, hscan, hdr, -, herr⟩ := h
  obtain ⟨heq, hm, hr⟩ := ha
  have hlink : st'.link = st.link := by rw [heq]
  refine ⟨?_, ?_, ?_, hdr.marked hlink hm hr, fun hd => absurd (hlink ▸ hd) hl, ?_⟩
  · rw [heq]; exact hp
  · rw [heq]; exact htype
  · rw [heq]; exact hscan
  · rw [heq]; exact herr

theorem Station.Sound.agrees {st st' : Station} (h : st.Sound) (hl : st.link ≠ .disabled) (ha : st.Agrees st') :
    st'.Sound := by
  obtain ⟨hloose, hentry⟩ := (st.sound_iff_loose).mp h
  refine (st'.sound_iff_loose).mpr ⟨hloose.agrees hl ha, ?_⟩
  rw [ha.1]
  exact hentry

/-- R96: an operator error at a station with no scan open. -/
theorem Station.LooseSound.held {st st' : Station} (h : st.LooseSound) (hl : st.link ≠ .disabled)
    (hs : st.scan = none) (hh : st.HeldFrom st') : st'.LooseSound := by
  obtain ⟨hp, -, -, hdr, -, -⟩ := h
  obtain ⟨heq, herr, hm⟩ := hh
  have hlink : st'.link = st.link := by rw [heq]
  have hscan : st'.scan = none := by rw [heq]; exact hs
  have htype : st'.typeAhead = [] := by rw [heq]
  refine ⟨by rw [heq]; exact hp, ⟨by simp [htype], fun _ => htype⟩, fun sc hsc => ?_, ?_,
    fun hd => absurd (hlink ▸ hd) hl, fun _ => herr⟩
  · rw [hscan] at hsc; cases hsc
  · exact hdr.marked hlink hm fun _ _ => by rw [heq]

theorem Station.HeldFrom.input {st st' : Station} (h : st.HeldFrom st') : st'.input = .held := by rw [h.1]
theorem Station.HeldFrom.scan {st st' : Station} (h : st.HeldFrom st') : st'.scan = st.scan := by rw [h.1]
theorem Station.HeldFrom.link {st st' : Station} (h : st.HeldFrom st') : st'.link = st.link := by rw [h.1]

theorem Station.LooseSound.acts {st st' : Station} (h : st.LooseSound) (hl : st.link ≠ .disabled)
    (hs : st.scan = none) (ha : st.Acts st') : st'.LooseSound :=
  ha.elim (fun he => h.agrees hl he.agrees) (h.held hl hs)

/-- R30: a change of input state at a station with no scan open. -/
theorem Station.LooseSound.setInput {st : Station} (h : st.LooseSound) (hl : st.link ≠ .disabled)
    (hs : st.scan = none) {i : InputState} (hi : i ≠ .held) : (st.setInput i).LooseSound := by
  unfold Station.setInput
  split
  · exact h
  · obtain ⟨hp, ⟨hlen, hempty⟩, hscan, hdr, -, -⟩ := h
    have hmid : ({ st with input := i, rep := none } : Station).LooseSound := by
      refine ⟨hp, ⟨hlen, ?_⟩, fun sc hsc => ?_, ?_, fun hd => absurd hd hl, fun hh => absurd hh hi⟩
      · rintro (hh | hh)
        · exact absurd hh hi
        · exact hempty (.inr hh)
      · have hsc : sc ∈ st.scan := hsc
        rw [hs] at hsc
        cases hsc
      · exact hdr.marked rfl (.refl _ _) fun _ _ => rfl
    exact hmid.agrees hl (Station.Edits.markIndicator _).agrees

end Sys2Proof.Machine
end

section
/-! SUPPORT. Sound releases at the state: replacing a station, queueing a record, waiting for room, serving the room-wait
list (R129 to R140). -/

namespace Sys2Proof.Machine

/-- The input states in which a station has neither a record nor a room-wait entry (R133). -/
def InputState.Free (i : InputState) : Prop := i ≠ .released ∧ i ≠ .roomWait

/-- A replaced station that keeps its place in the release queue: its input state and sheet are the same, or it has no
release before and after. -/
def Station.KeepsPlace (st st' : Station) : Prop :=
  (st'.input = st.input ∧ st'.sheet = st.sheet) ∨ (st.input.Free ∧ st'.input.Free)

theorem State.OwnersSound.free {s : State} (h : s.OwnersSound) {n : StationIx} (hf : (s.station n).input.Free) :
    (∀ r ∈ s.rq.queue, r.station ≠ n) ∧ ∀ e ∈ s.rq.rooms, e.station ≠ n := by
  obtain ⟨-, -, hown⟩ := h
  obtain ⟨hrel, hroom⟩ := hown n
  exact ⟨fun r hr hn => hf.1 (hrel.mpr ⟨r, hr, hn⟩), fun e he hn => hf.2 (hroom.mpr ⟨e, he, hn⟩)⟩

/-- Releases rest on the stations, the release queue and the answer alone. -/
theorem State.ReleasesSound.of_same {s t : State} (hst : ∀ n, t.station n = s.station n) (hrq : t.rq = s.rq)
    (ha : t.answer = s.answer) (h : s.ReleasesSound) : t.ReleasesSound := by
  obtain ⟨hstage, ⟨hq, hr, hown⟩, ⟨hsize, hhead⟩, hand⟩ := h
  refine ⟨hrq ▸ hstage, ⟨hrq ▸ hq, hrq ▸ hr, fun n => ?_⟩, ⟨fun e he => ?_, hrq ▸ hhead⟩, ?_⟩
  · rw [hst n, hrq]; exact hown n
  · rw [hst e.station]; exact hsize e (hrq ▸ he)
  · intro a hx hk
    rw [hrq]
    exact hand a (ha ▸ hx) hk

theorem State.ReleasesSound.setStation {s : State} (h : s.ReleasesSound) {n : StationIx} {st : Station}
    (hplace : (s.station n).KeepsPlace st) : (s.setStation n st).ReleasesSound := by
  obtain ⟨hstage, howners, ⟨hsize, hhead⟩, hand⟩ := h
  obtain ⟨hq, hr, hown⟩ := id howners
  refine ⟨hstage, ⟨hq, hr, fun m => ?_⟩, ⟨fun e he => ?_, hhead⟩, hand⟩
  · rw [State.station_setStation]
    split
    · rename_i hm
      subst hm
      rcases hplace with ⟨hin, -⟩ | ⟨hf, hf'⟩
      · rw [hin]; exact hown m
      · obtain ⟨hnoq, hnor⟩ := howners.free hf
        exact ⟨⟨fun hi => absurd hi hf'.1, fun ⟨r, hr, hn⟩ => absurd hn (hnoq r hr)⟩,
          ⟨fun hi => absurd hi hf'.2, fun ⟨e, he, hn⟩ => absurd hn (hnor e he)⟩⟩
    · exact hown m
  · rw [State.station_setStation]
    split
    · rename_i hm
      rcases hplace with ⟨-, hsheet⟩ | ⟨hf, -⟩
      · rw [hsheet, ← hm]; exact hsize e he
      · exact absurd hm ((howners.free hf).2 e he)
    · exact hsize e he

/-! ### The stations and the releases together -/

/-- Every station and the releases are sound (O58). -/
def State.Joint (s : State) : Prop := s.StationsSound ∧ s.ReleasesSound

/-- The same, while the type-ahead queue of one station is replayed. -/
def State.LooseAt (s : State) (n : StationIx) : Prop :=
  (s.station n).LooseSound ∧ (∀ m, m ≠ n → (s.station m).Sound) ∧ s.ReleasesSound

theorem State.Joint.looseAt {s : State} (h : s.Joint) (n : StationIx) : s.LooseAt n :=
  ⟨(h.1 n).loose, fun m _ => h.1 m, h.2⟩

theorem State.LooseAt.joint {s : State} {n : StationIx} (h : s.LooseAt n) (hs : (s.station n).Sound) : s.Joint := by
  refine ⟨fun m => ?_, h.2.2⟩
  by_cases hm : m = n
  · subst hm; exact hs
  · exact h.2.1 m hm

theorem State.Joint.of_same {s t : State} (hst : ∀ n, t.station n = s.station n) (hrq : t.rq = s.rq)
    (ha : t.answer = s.answer) (h : s.Joint) : t.Joint :=
  ⟨fun n => hst n ▸ h.1 n, h.2.of_same hst hrq ha⟩

theorem State.LooseAt.of_same {s t : State} {n : StationIx} (hst : ∀ n, t.station n = s.station n) (hrq : t.rq = s.rq)
    (ha : t.answer = s.answer) (h : s.LooseAt n) : t.LooseAt n :=
  ⟨hst n ▸ h.1, fun m hm => hst m ▸ h.2.1 m hm, h.2.2.of_same hst hrq ha⟩

theorem State.LooseAt.setStation {s : State} {n : StationIx} (h : s.LooseAt n) {st : Station} (hst : st.LooseSound)
    (hplace : (s.station n).KeepsPlace st) : (s.setStation n st).LooseAt n := by
  obtain ⟨-, hothers, hrel⟩ := h
  refine ⟨by rwa [State.station_setStation_same], fun m hm => ?_, hrel.setStation hplace⟩
  rw [State.station_setStation_ne _ _ hm]
  exact hothers m hm

theorem State.Joint.setStation {s : State} {n : StationIx} (h : s.Joint) {st : Station} (hst : st.Sound)
    (hplace : (s.station n).KeepsPlace st) : (s.setStation n st).Joint :=
  ((h.looseAt n).setStation hst.loose hplace).joint (by rwa [State.station_setStation_same])

theorem State.Joint.onStation {s : State} {n : StationIx} (h : s.Joint) {f : Station → Station}
    (hst : (f (s.station n)).Sound) (hplace : (s.station n).KeepsPlace (f (s.station n))) : (s.onStation n f).Joint :=
  h.setStation hst hplace

/-- A change of a station in service that its soundness does not look at, with its sheet as it was. -/
theorem State.Joint.agrees {s : State} {n : StationIx} (h : s.Joint) (hl : (s.station n).link ≠ .disabled)
    {f : Station → Station} (ha : (s.station n).Agrees (f (s.station n)))
    (hsheet : (f (s.station n)).sheet = (s.station n).sheet) : (s.onStation n f).Joint :=
  h.onStation ((h.1 n).agrees hl ha) (.inl ⟨by rw [ha.1], hsheet⟩)

theorem Station.Acts.free {st st' : Station} (h : st.Acts st') (hf : st.input.Free) : st'.input.Free := by
  rcases h with h | h
  · rw [h.input]; exact hf
  · rw [h.input]; exact ⟨by decide, by decide⟩

/-- An action carried out at a station with no release and no scan open. -/
theorem State.LooseAt.acts {s : State} {n : StationIx} (h : s.LooseAt n) (hl : (s.station n).link ≠ .disabled)
    (hs : (s.station n).scan = none) (hf : (s.station n).input.Free) {st : Station} (ha : (s.station n).Acts st) :
    (s.setStation n st).LooseAt n :=
  h.setStation (h.1.acts hl hs ha) (.inr ⟨hf, ha.free hf⟩)

/-! ### Queueing a record (R130) -/

/-- The parts of sound releases that the serving of the list keeps, for a list of entries still to serve. -/
def State.Waiting (s : State) (rooms : List RoomEntry) : Prop :=
  s.rq.StagingSound ∧ s.rq.queue.Pairwise (fun r q => r.station ≠ q.station) ∧
    rooms.Pairwise (fun e d => e.station ≠ d.station) ∧
    (∀ n, ((s.station n).input = .released ↔ ∃ r ∈ s.rq.queue, r.station = n) ∧
      ((s.station n).input = .roomWait ↔ ∃ e ∈ rooms, e.station = n)) ∧
    ∀ e ∈ rooms, e.size = recordSize ((s.station e.station).sheet.releaseEntries e.full) ∧ e.size ≤ 2048

theorem State.ReleasesSound.waiting {s : State} (h : s.ReleasesSound) : s.Waiting s.rq.rooms := by
  obtain ⟨hstage, ⟨hq, hr, hown⟩, ⟨hsize, -⟩, -⟩ := h
  exact ⟨hstage, hq, hr, hown, hsize⟩

theorem State.Waiting.releasesSound {s : State} (h : s.Waiting s.rq.rooms)
    (hhead : ∀ e ∈ s.rq.rooms.head?, s.rq.fits e.size = false) (hand : s.HandoverSound) : s.ReleasesSound := by
  obtain ⟨hstage, hq, hr, hown, hsize⟩ := h
  exact ⟨hstage, ⟨hq, hr, hown⟩, ⟨hsize, hhead⟩, hand⟩

/-- R130, R131: the record of a station joins the queue when it fits; the station, if it waited, does so no more. -/
theorem State.Waiting.enqueue {s : State} {e : RoomEntry} {rooms es : List RoomEntry} (h : s.Waiting rooms)
    (hsub : es.Sublist rooms) (hrest : ∀ d ∈ rooms, d ∈ es ∨ d.station = e.station)
    (hnew : ∀ d ∈ es, d.station ≠ e.station) (hrel : (s.station e.station).input ≠ .released)
    (hsize : recordSize ((s.station e.station).sheet.releaseEntries e.full) ≤ 2048)
    (hfits : s.rq.fits (recordSize ((s.station e.station).sheet.releaseEntries e.full)) = true) :
    (s.enqueue e).Waiting es := by
  obtain ⟨⟨hsum, -, hrecords⟩, hq, hr, hown, hsizes⟩ := h
  have hnoq : ∀ r ∈ s.rq.queue, r.station ≠ e.station := fun r hr hn => hrel ((hown e.station).1.mpr ⟨r, hr, hn⟩)
  have hmem : ∀ r, r ∈ (s.enqueue e).rq.queue ↔ r ∈ s.rq.queue ∨ r = (s.station e.station).sheet.compose e := by
    simp [ReleaseQueue.append]
  refine ⟨⟨?_, ?_, fun r hr => ?_⟩, ?_, hr.sublist hsub, fun n => ?_, fun d hd => ?_⟩
  · simp [ReleaseQueue.append, hsum]
  · exact of_decide_eq_true hfits
  · rcases (hmem r).mp hr with hr | rfl
    · exact hrecords r hr
    · exact ⟨rfl, hsize⟩
  · rw [State.enqueue_rq]
    refine List.pairwise_append.mpr ⟨hq, List.pairwise_singleton _ _, fun r hr d hd => ?_⟩
    rw [List.mem_singleton.mp hd]
    exact hnoq r hr
  · rw [State.station_enqueue]
    split
    · rename_i hn
      subst hn
      refine ⟨⟨fun _ => ⟨_, (hmem _).mpr (.inr rfl), rfl⟩, fun _ => by simp⟩, ?_⟩
      simp only [Station.setInput_input, reduceCtorEq, false_iff, not_exists, not_and]
      exact fun d hd => hnew d hd
    · rename_i hn
      refine ⟨(hown n).1.trans ⟨fun ⟨r, hr, hrn⟩ => ⟨r, (hmem r).mpr (.inl hr), hrn⟩, fun ⟨r, hr, hrn⟩ => ?_⟩,
        (hown n).2.trans ⟨fun ⟨d, hd, hdn⟩ => ?_, fun ⟨d, hd, hdn⟩ => ⟨d, hsub.mem hd, hdn⟩⟩⟩
      · rcases (hmem r).mp hr with hr | rfl
        · exact ⟨r, hr, hrn⟩
        · exact absurd hrn.symm hn
      · rcases hrest d hd with hd | hd
        · exact ⟨d, hd, hdn⟩
        · exact absurd (hdn.symm.trans hd) hn
  · rw [State.station_enqueue, if_neg (hnew d hd)]
    exact hsizes d (hsub.mem hd)

/-- R130: a record queued while nobody waits. -/
theorem State.LooseAt.enqueue {s : State} {e : RoomEntry} (h : s.LooseAt e.station)
    (hl : (s.station e.station).link ≠ .disabled) (hs : (s.station e.station).scan = none)
    (hf : (s.station e.station).input.Free) (hrooms : s.rq.rooms = [])
    (hsize : recordSize ((s.station e.station).sheet.releaseEntries e.full) ≤ 2048)
    (hfits : s.rq.fits (recordSize ((s.station e.station).sheet.releaseEntries e.full)) = true) :
    (s.enqueue e).LooseAt e.station := by
  obtain ⟨hloose, hothers, hrel⟩ := h
  have hrooms' : (s.enqueue e).rq.rooms = [] := hrooms
  have hwait : (s.enqueue e).Waiting (s.enqueue e).rq.rooms := by
    have hw := hrel.waiting
    rw [hrooms] at hw
    rw [hrooms']
    exact hw.enqueue (.refl _) (fun d hd => (nomatch hd)) (fun d hd => (nomatch hd)) hf.1 hsize hfits
  refine ⟨?_, fun m hm => ?_, hwait.releasesSound (fun d hd => ?_) fun a ha hk => ?_⟩
  · rw [State.station_enqueue, if_pos rfl]
    exact hloose.setInput hl hs (by decide)
  · rw [State.station_enqueue, if_neg hm]
    exact hothers m hm
  · rw [hrooms'] at hd
    cases hd
  · obtain ⟨-, -, -, hand⟩ := hrel
    obtain ⟨r, hr, hst⟩ := hand a ha hk
    exact ⟨r, List.mem_append_left _ hr, hst⟩

theorem State.station_awaitRoom (s : State) (e : RoomEntry) (n : StationIx) :
    (s.awaitRoom e).station n = if n = e.station then (s.station n).setInput .roomWait else s.station n := by
  have h : (s.awaitRoom e).station n =
      (s.setStation e.station ((s.station e.station).setInput .roomWait)).station n := rfl
  rw [h, State.station_setStation]
  split
  · rename_i h; rw [h]
  · rfl

/-- R130: a station joins the room-wait list, behind those that wait or because its record does not fit. -/
theorem State.LooseAt.awaitRoom {s : State} {e : RoomEntry} (h : s.LooseAt e.station)
    (hl : (s.station e.station).link ≠ .disabled) (hs : (s.station e.station).scan = none)
    (hf : (s.station e.station).input.Free)
    (hsize : e.size = recordSize ((s.station e.station).sheet.releaseEntries e.full)) (hmax : e.size ≤ 2048)
    (hfull : s.rq.rooms = [] → s.rq.fits e.size = false) : (s.awaitRoom e).LooseAt e.station := by
  obtain ⟨hloose, hothers, hrel⟩ := h
  obtain ⟨hstage, howners, ⟨hsizes, hhead⟩, hand⟩ := hrel
  obtain ⟨hnoq, hnor⟩ := howners.free hf
  obtain ⟨hq, hr, hown⟩ := howners
  have hmem : ∀ d, d ∈ (s.awaitRoom e).rq.rooms ↔ d ∈ s.rq.rooms ∨ d = e := by simp [State.awaitRoom]
  refine ⟨?_, fun m hm => ?_, hstage, ⟨hq, ?_, fun n => ?_⟩, ⟨fun d hd => ?_, fun d hd => ?_⟩, hand⟩
  · rw [State.station_awaitRoom, if_pos rfl]
    exact hloose.setInput hl hs (by decide)
  · rw [State.station_awaitRoom, if_neg hm]
    exact hothers m hm
  · refine List.pairwise_append.mpr ⟨hr, List.pairwise_singleton _ _, fun d hd x hx => ?_⟩
    rw [List.mem_singleton.mp hx]
    exact hnor d hd
  · rw [State.station_awaitRoom]
    split
    · rename_i hn
      subst hn
      refine ⟨?_, ⟨fun _ => ⟨e, (hmem e).mpr (.inr rfl), rfl⟩, fun _ => by simp⟩⟩
      simp only [Station.setInput_input, reduceCtorEq, false_iff, not_exists, not_and]
      exact fun r hr => hnoq r hr
    · rename_i hn
      refine ⟨(hown n).1, (hown n).2.trans ⟨fun ⟨d, hd, hdn⟩ => ⟨d, (hmem d).mpr (.inl hd), hdn⟩, fun ⟨d, hd, hdn⟩ => ?_⟩⟩
      rcases (hmem d).mp hd with hd | rfl
      · exact ⟨d, hd, hdn⟩
      · exact absurd hdn.symm hn
  · rcases (hmem d).mp hd with hd | rfl
    · rw [State.station_awaitRoom, if_neg (hnor d hd)]
      exact hsizes d hd
    · rw [State.station_awaitRoom, if_pos rfl, Station.setInput_sheet]
      exact ⟨hsize, hmax⟩
  · have hhead' : d ∈ (s.rq.rooms ++ [e]).head? := hd
    change s.rq.fits d.size = false
    cases hrooms : s.rq.rooms with
    | nil =>
      rw [hrooms] at hhead'
      cases hhead'
      exact hfull hrooms
    | cons x xs =>
      rw [hrooms] at hhead'
      refine hhead d ?_
      rw [hrooms]
      exact hhead'

/-- R125 to R130: a release action at a station in ENTRY with no scan open. -/
theorem State.LooseAt.release {s : State} {n : StationIx} (h : s.LooseAt n) (hp : (s.station n).Processing)
    (code : Byte) (pri : Priority) (full : Bool) :
    (s.release n code pri full).LooseAt n ∧ ((s.release n code pri full).station n).scan = none ∧
      ((s.release n code pri full).station n).input ≠ .entry := by
  obtain ⟨hentry, hscan⟩ := hp
  have hl : (s.station n).link ≠ .disabled := h.1.enabled (by rw [hentry]; decide)
  have hf : (s.station n).input.Free := by rw [hentry]; exact ⟨by decide, by decide⟩
  unfold State.release
  rcases (s.station n).releaseChecks_cases s.classes full with ⟨st, hok, hedit, hsize⟩ | ⟨st, herr, hheld⟩
  · rw [hok]
    dsimp only
    have ht : (s.setStation n st).LooseAt n := h.acts hl hscan hf (.inl hedit)
    have hstn : (s.setStation n st).station n = st := State.station_setStation_same s n st
    have hl' : ((s.setStation n st).station n).link ≠ .disabled := by rw [hstn, hedit.link]; exact hl
    have hs' : ((s.setStation n st).station n).scan = none := by rw [hstn, hedit.scan]; exact hscan
    have hf' : ((s.setStation n st).station n).input.Free := by rw [hstn, hedit.input]; exact hf
    rw [← hstn] at hsize
    revert ht hl' hs' hf' hsize
    generalize s.setStation n st = t
    intro hsize ht hl' hs' hf'
    unfold State.placeRelease
    dsimp only
    split
    · rename_i hroom
      refine ⟨State.LooseAt.enqueue (e := ⟨n, code, pri, full, _⟩) ht hl' hs' hf' hroom.1 hsize hroom.2, ?_, ?_⟩
      · rw [State.station_enqueue, if_pos rfl, Station.setInput_scan]; exact hs'
      · rw [State.station_enqueue, if_pos rfl, Station.setInput_input]; decide
    · rename_i hroom
      refine ⟨State.LooseAt.awaitRoom (e := ⟨n, code, pri, full, _⟩) ht hl' hs' hf' rfl hsize fun hnil => ?_, ?_, ?_⟩
      · exact Bool.eq_false_iff.mpr fun hfit => hroom ⟨hnil, hfit⟩
      · rw [State.station_awaitRoom, if_pos rfl, Station.setInput_scan]; exact hs'
      · rw [State.station_awaitRoom, if_pos rfl, Station.setInput_input]; decide
  · rw [herr]
    refine ⟨h.acts hl hscan hf (.inr hheld), ?_, ?_⟩
    · rw [State.station_setStation_same, hheld.scan]; exact hscan
    · rw [State.station_setStation_same, hheld.input]; decide

/-! ### Serving the room-wait list (R135) -/

/-- R135: from releases that are sound but for the head of the list, serving the list makes them sound. -/
theorem State.serveList_joint {es : List RoomEntry} {s : State} (hst : s.StationsSound) (h : s.Waiting es)
    (ha : s.answer = none) : (State.serveList es s).Joint := by
  induction es generalizing s with
  | nil =>
    refine ⟨hst, State.Waiting.releasesSound (s := State.serveList [] s) h (fun d hd => nomatch hd) fun a hx => ?_⟩
    have : s.answer = some a := hx
    rw [ha] at this
    cases this
  | cons e es ih =>
    obtain ⟨hstage, hq, hr, hown, hsizes⟩ := id h
    obtain ⟨hnew, hr⟩ := List.pairwise_cons.mp hr
    unfold State.serveList
    split
    · rename_i hfit
      have hwaits : (s.station e.station).input = .roomWait := (hown e.station).2.mpr ⟨e, List.mem_cons_self, rfl⟩
      obtain ⟨hsize, hmax⟩ := hsizes e List.mem_cons_self
      have hqueued : (s.enqueue e).Waiting es :=
        h.enqueue (List.sublist_cons_self e es) (fun d hd => (List.mem_cons.mp hd).symm.imp_right fun heq => by rw [heq])
          (fun d hd => (hnew d hd).symm) (by rw [hwaits]; decide) (hsize ▸ hmax) (hsize ▸ hfit)
      refine ih (fun n => ?_) hqueued ha
      rw [State.station_enqueue]
      split
      · rename_i hn
        subst hn
        have hloose := (hst e.station).loose
        have hs := hloose.scan_none (by rw [hwaits]; decide)
        exact (hloose.setInput (hloose.enabled (by rw [hwaits]; decide)) hs (by decide)).sound_of_input (by simp)
      · exact hst n
    · rename_i hfit
      refine ⟨hst, State.Waiting.releasesSound (s := { s with rq := { s.rq with rooms := e :: es } }) h
        (fun d hd => ?_) fun a hx => ?_⟩
      · cases hd
        exact Bool.eq_false_iff.mpr hfit
      · have : s.answer = some a := hx
        rw [ha] at this
        cases this

/-! ### Removing a release (R138, R140) -/

/-- R138, R140: a station's record and its room-wait entry removed, with the station's input state free again. -/
theorem State.ReleasesSound.removed {s : State} (h : s.ReleasesSound) {n : StationIx} {st : Station}
    (hf : st.input.Free) :
    ({ s.setStation n st with
        rq := { s.rq.remove n with rooms := s.rq.rooms.filter fun e => e.station != n } } : State).Waiting
      (s.rq.rooms.filter fun e => e.station != n) := by
  obtain ⟨hstage, ⟨hq, hr, hown⟩, ⟨hsizes, -⟩, -⟩ := h
  have hstaging := ReleaseQueue.remove_spec n hstage
  have hmem : ∀ r, r ∈ (s.rq.remove n).queue ↔ r ∈ s.rq.queue ∧ r.station ≠ n := by simp [ReleaseQueue.remove]
  have hroom : ∀ e, (e ∈ s.rq.rooms.filter fun e => e.station != n) ↔ e ∈ s.rq.rooms ∧ e.station ≠ n := by simp
  have hstation : ∀ m, ({ s.setStation n st with
      rq := { s.rq.remove n with rooms := s.rq.rooms.filter fun e => e.station != n } } : State).station m =
        if m = n then st else s.station m := fun m => s.station_setStation n m st
  obtain ⟨hsum, hmax, hrecords⟩ := hstage
  have hle : (s.rq.remove n).staging ≤ s.rq.staging := Nat.sub_le _ _
  refine ⟨⟨hstaging, hle.trans hmax, fun r hr => hrecords r ((hmem r).mp hr).1⟩, hq.filter _, hr.filter _,
    fun m => ?_, fun e he => ?_⟩
  · rw [hstation m]
    split
    · rename_i hm
      subst hm
      exact ⟨⟨fun hi => absurd hi hf.1, fun ⟨r, hr, hrn⟩ => absurd hrn ((hmem r).mp hr).2⟩,
        ⟨fun hi => absurd hi hf.2, fun ⟨e, he, hen⟩ => absurd hen ((hroom e).mp he).2⟩⟩
    · rename_i hm
      refine ⟨(hown m).1.trans ⟨fun ⟨r, hr, hrn⟩ => ⟨r, (hmem r).mpr ⟨hr, hrn ▸ hm⟩, hrn⟩,
          fun ⟨r, hr, hrn⟩ => ⟨r, ((hmem r).mp hr).1, hrn⟩⟩,
        (hown m).2.trans ⟨fun ⟨e, he, hen⟩ => ⟨e, (hroom e).mpr ⟨he, hen ▸ hm⟩, hen⟩,
          fun ⟨e, he, hen⟩ => ⟨e, ((hroom e).mp he).1, hen⟩⟩⟩
  · obtain ⟨he, hen⟩ := (hroom e).mp he
    rw [hstation e.station, if_neg hen]
    exact hsizes e he

theorem State.setStation_comm (s : State) {n m : StationIx} (h : n ≠ m) (a b : Station) :
    (s.setStation n a).setStation m b = (s.setStation m b).setStation n a := by
  have hv : n.1 ≠ m.1 := fun e => h (Fin.ext e)
  unfold State.setStation
  rw [Vector.set_comm _ _ hv]

/-- The serving of the list looks at no other station. -/
theorem State.serveList_setStation {es : List RoomEntry} {n : StationIx} (hn : ∀ e ∈ es, e.station ≠ n) (s : State)
    (st : Station) : (State.serveList es s).setStation n st = State.serveList es (s.setStation n st) := by
  induction es generalizing s with
  | nil => rfl
  | cons e es ih =>
    obtain ⟨he, hes⟩ := List.forall_mem_cons.mp hn
    have hsame : (s.setStation n st).station e.station = s.station e.station := State.station_setStation_ne s st he
    have hfits : (s.setStation n st).rq.fits e.size = s.rq.fits e.size := rfl
    have hqueued : (s.enqueue e).setStation n st = (s.setStation n st).enqueue e := by
      rw [State.enqueue_frame, State.enqueue_frame, hsame, State.setStation_comm s he.symm]
      rfl
    unfold State.serveList
    rw [hfits]
    split
    · rw [ih hes, hqueued]
    · rfl

/-- R140: a release discarded and its station then replaced: the list is served from the state with both done. -/
theorem State.discardRelease_setStation (s : State) (n : StationIx) (st : Station) :
    (s.discardRelease n).setStation n st =
      State.serveList (s.rq.rooms.filter fun e => e.station != n)
        { s.setStation n st with
          rq := { s.rq.remove n with rooms := s.rq.rooms.filter fun e => e.station != n } } := by
  have h := State.serveList_setStation (es := s.rq.rooms.filter fun e => e.station != n) (n := n) (by simp)
    { s with rq := { s.rq.remove n with rooms := s.rq.rooms.filter fun e => e.station != n } } st
  exact h

/-- R140: after a release is discarded and its station has a free input state again, everything is sound. -/
theorem State.Joint.discardRelease {s : State} (h : s.Joint) (ha : s.answer = none) {n : StationIx} {st : Station}
    (hst : st.Sound) (hf : st.input.Free) : ((s.discardRelease n).setStation n st).Joint := by
  rw [State.discardRelease_setStation]
  refine State.serveList_joint (fun m => ?_) (h.2.removed hf) ha
  have hstation : ({ s.setStation n st with
      rq := { s.rq.remove n with rooms := s.rq.rooms.filter fun e => e.station != n } } : State).station m =
        if m = n then st else s.station m := s.station_setStation n m st
  rw [hstation]
  split
  · exact hst
  · exact h.1 m

/-- R138: after a RELEASE has been sent, its record removed and its station WAITING, everything is sound. -/
theorem State.Joint.completeRelease {s : State} (h : s.Joint) (ha : s.answer = none) {n : StationIx}
    (hn : (s.station n).input = .released) : (s.completeRelease n).Joint := by
  have hnor : ∀ e ∈ s.rq.rooms, e.station ≠ n := fun e he hen => by
    have := (h.2.2.1.2.2 n).2.mpr ⟨e, he, hen⟩
    rw [hn] at this
    cases this
  have hrooms : (s.rq.rooms.filter fun e => e.station != n) = s.rq.rooms := by
    rw [List.filter_eq_self]
    simpa using hnor
  have hloose := (h.1 n).loose
  have hst : ((s.station n).setInput .waiting).Sound :=
    (hloose.setInput (hloose.enabled (by rw [hn]; decide)) (hloose.scan_none (by rw [hn]; decide))
      (by decide)).sound_of_input (by simp)
  have hserved := h.discardRelease ha (n := n) hst (by simp [InputState.Free])
  rw [State.discardRelease_setStation, hrooms] at hserved
  exact hserved

end Sys2Proof.Machine
end

section
/-! SUPPORT. Sound stations and sound releases through the operations of a station: actions, the type-ahead queue, scans
and the link (R24 to R42, R73 to R89, R115 to R123). -/

namespace Sys2Proof.Machine

/-! ### Actions and the replay of the type-ahead queue (R84 to R89) -/

theorem Station.Acts.scan {st st' : Station} (h : st.Acts st') : st'.scan = st.scan := h.elim (·.scan) (·.scan)

theorem Station.Acts.typeAhead {st st' : Station} (h : st.Acts st') (he : st'.input = .entry) :
    st'.typeAhead = st.typeAhead := by
  rcases h with h | h
  · exact h.typeAhead
  · rw [h.input] at he; cases he

/-- While the type-ahead queue of station n is replayed: no scan is open, and in ENTRY the queue holds the actions still to
be replayed. -/
def State.Replaying (s : State) (n : StationIx) (actions : List Action) : Prop :=
  s.LooseAt n ∧ (s.station n).scan = none ∧ ((s.station n).input = .entry → (s.station n).typeAhead = actions)

theorem State.Replaying.joint {s : State} {n : StationIx} (h : s.Replaying n []) : s.Joint :=
  h.1.joint (((s.station n).sound_iff_loose).mpr ⟨h.1.1, fun he _ => h.2.2 he⟩)

theorem State.Replaying.joint_of_input {s : State} {n : StationIx} {as : List Action} (h : s.Replaying n as)
    (hi : (s.station n).input ≠ .entry) : s.Joint := h.1.joint (h.1.1.sound_of_input hi)

theorem State.Replaying.of_same {s t : State} {n : StationIx} {as : List Action} (h : s.Replaying n as)
    (hst : ∀ n, t.station n = s.station n) (hrq : t.rq = s.rq) (ha : t.answer = s.answer) : t.Replaying n as :=
  ⟨h.1.of_same hst hrq ha, by rw [hst]; exact h.2.1, by rw [hst]; exact h.2.2⟩

/-- R84: an action processed at a station in ENTRY with no scan open. -/
theorem State.LooseAt.process {s : State} {n : StationIx} (h : s.LooseAt n) (hp : (s.station n).Processing)
    (a : Action) : (s.process n a).Replaying n (s.station n).typeAhead := by
  obtain ⟨hentry, hscan⟩ := id hp
  have hl : (s.station n).link ≠ .disabled := h.1.enabled (by rw [hentry]; decide)
  have hf : (s.station n).input.Free := by rw [hentry]; exact ⟨by decide, by decide⟩
  have unchanged : s.Replaying n (s.station n).typeAhead := ⟨h, hscan, fun _ => rfl⟩
  have acted {st : Station} (ha : (s.station n).Acts st) : (s.setStation n st).Replaying n (s.station n).typeAhead := by
    refine ⟨h.acts hl hscan hf ha, ?_, ?_⟩ <;> rw [State.station_setStation_same]
    · exact ha.scan.trans hscan
    · exact ha.typeAhead
  have released (code : Byte) (pri : Priority) (full : Bool) :
      (s.release n code pri full).Replaying n (s.station n).typeAhead := by
    obtain ⟨hloose, hs, hi⟩ := h.release hp code pri full
    exact ⟨hloose, hs, fun he => absurd he hi⟩
  cases a with
  | char c => exact acted (Station.charAction_acts _ _ c)
  | move m => exact acted (Station.moveAction_acts _ _ m)
  | edit e => exact acted (Station.editAction_acts _ _ e)
  | release code => exact released _ _ _
  | releaseShort code => exact released _ _ _
  | releaseUrgent code => exact released _ _ _
  | signal => exact unchanged.of_same (fun _ => rfl) rfl rfl
  | reset => exact unchanged
  | none => exact unchanged
  | shift => exact unchanged
  | alt => exact unchanged

/-- R84: a sound station in ENTRY with no scan open has an empty queue, and stays sound. -/
theorem State.Joint.process {s : State} (h : s.Joint) {n : StationIx} (hp : (s.station n).Processing) (a : Action) :
    (s.process n a).Joint := by
  have hempty := (((s.station n).sound_iff_loose).mp (h.1 n)).2 hp.1 hp.2
  have ht := (h.looseAt n).process hp a
  rw [hempty] at ht
  exact ht.joint

/-- R89: the first action taken off the queue. -/
theorem State.Replaying.takeOff {s : State} {n : StationIx} {a : Action} {as : List Action}
    (h : s.Replaying n (a :: as)) (he : (s.station n).input = .entry) :
    (s.onStation n fun st => { st with typeAhead := as }).LooseAt n := by
  obtain ⟨hloose, -, hqueue⟩ := h
  obtain ⟨hp, ⟨hlen, hempty⟩, hsc, hdr, -, herr⟩ := id hloose.1
  have hl := hloose.1.enabled (by rw [he]; decide)
  rw [hqueue he] at hlen hempty
  refine hloose.setStation ⟨hp, ⟨(Nat.le_succ _).trans hlen, fun hc => ?_⟩, hsc, hdr, fun hd => absurd hd hl, herr⟩
    (.inl ⟨rfl, rfl⟩)
  cases hempty hc

theorem State.Replaying.replayList {n : StationIx} {as : List Action} {s : State} (h : s.Replaying n as) :
    (State.replayList n as s).Joint := by
  induction as generalizing s with
  | nil => exact h.joint
  | cons a as ih =>
    unfold State.replayList
    split
    · rename_i he
      refine ih ?_
      have hoff := h.takeOff he
      have hst : (s.onStation n fun st => { st with typeAhead := as }).station n =
          { s.station n with typeAhead := as } := State.station_onStation_same _ _ _
      have hp : ((s.onStation n fun st => { st with typeAhead := as }).station n).Processing := by
        rw [hst]; exact ⟨he, h.2.1⟩
      have hnext := hoff.process hp a
      rw [hst] at hnext
      exact hnext
    · rename_i he
      exact h.joint_of_input he

/-- R89: the replay of a station's queue ends with every station sound. -/
theorem State.LooseAt.replay {s : State} {n : StationIx} (h : s.LooseAt n) (hs : (s.station n).scan = none) :
    (s.replay n).Joint := State.Replaying.replayList ⟨h, hs, fun _ => rfl⟩

/-! ### Key events (R73 to R88) -/

/-- Sound, with the link of station n ATTACHED. -/
def State.Live (s : State) (n : StationIx) : Prop := s.Joint ∧ (s.station n).link = .attached

theorem State.Live.enabled {s : State} {n : StationIx} (h : s.Live n) : (s.station n).link ≠ .disabled := by
  rw [h.2]; decide

theorem State.Live.setStation {s : State} {n : StationIx} (h : s.Live n) {st : Station} (hst : st.Sound)
    (hlink : st.link = .attached) (hplace : (s.station n).KeepsPlace st) : (s.setStation n st).Live n :=
  ⟨h.1.setStation hst hplace, by rw [State.station_setStation_same]; exact hlink⟩

/-- A change on an ATTACHED link that soundness does not look at. -/
theorem State.Live.agrees {s : State} {n : StationIx} (h : s.Live n) {f : Station → Station}
    (ha : (s.station n).Agrees (f (s.station n))) (hsheet : (f (s.station n)).sheet = (s.station n).sheet) :
    (s.onStation n f).Live n :=
  h.setStation ((h.1.1 n).agrees h.enabled ha) (by rw [ha.1]; exact h.2) (.inl ⟨by rw [ha.1], hsheet⟩)

/-- A change of key state, repeat and counters alone. -/
theorem State.Live.keyState {s : State} {n : StationIx} (h : s.Live n) {f : Station → Station}
    (hf : f (s.station n) =
      { s.station n with
          shiftHolders := (f (s.station n)).shiftHolders, altHolders := (f (s.station n)).altHolders
          chatter := (f (s.station n)).chatter, rep := (f (s.station n)).rep
          keysDiscarded := (f (s.station n)).keysDiscarded, scanRejects := (f (s.station n)).scanRejects }) :
    (s.onStation n f).Live n := by
  have hsheet : (f (s.station n)).sheet = (s.station n).sheet := by rw [hf]
  have hdr : (f (s.station n)).dr = (s.station n).dr := by rw [hf]
  refine h.agrees ⟨?_, hdr ▸ .refl _ _, fun hl => absurd h.2 hl⟩ hsheet
  rw [hf]

theorem State.Joint.raise {s : State} (h : s.Joint) (n : StationIx) (bits : Byte) : (s.raise n bits).Joint :=
  h.of_same (fun _ => rfl) rfl rfl

theorem State.Live.requestAlarm {s : State} {n : StationIx} (h : s.Live n) :
    (s.onStation n Station.requestAlarm).Live n :=
  h.agrees (Station.Edits.requestAlarm _).agrees (Station.requestAlarm_sheet _)

/-- R86: the queue of a sound station replaced by one that its state allows. -/
theorem Station.Sound.withTypeAhead {st : Station} (h : st.Sound) (hl : st.link = .attached) {as : List Action}
    (hlen : as.length ≤ 32) (hempty : st.input = .held ∨ (st.input = .entry ∧ st.scan = none) → as = []) :
    ({ st with typeAhead := as } : Station).Sound := by
  obtain ⟨hp, -, hsc, hdr, -, herr⟩ := h
  refine ⟨hp, ⟨hlen, ?_⟩, hsc, hdr, fun hd => ?_, herr⟩
  · rintro (hi | hi | hi)
    · exact hempty (.inl hi)
    · exact hempty (.inr hi)
    · exact absurd hl hi
  · rw [hl] at hd; cases hd

/-- R87: an action joins the type-ahead queue, or is discarded. -/
theorem State.Live.typeAheadAppend {s : State} {n : StationIx} (h : s.Live n) (hheld : (s.station n).input ≠ .held)
    (hopen : ¬ ((s.station n).input = .entry ∧ (s.station n).scan = none)) (a : Action) :
    (s.typeAheadAppend n a).Joint := by
  unfold State.typeAheadAppend
  split
  · rename_i hlen
    refine h.1.setStation ((h.1.1 n).withTypeAhead h.2 ?_ ?_) (.inl ⟨rfl, rfl⟩)
    · rw [List.length_append]; exact hlen
    · rintro (hi | hi)
      · exact absurd hi hheld
      · exact absurd hi hopen
  · have hcount := h.keyState (f := fun st => { st with keysDiscarded := st.keysDiscarded + 1 }) rfl
    have halarm := hcount.requestAlarm
    rw [State.onStation_onStation] at halarm
    exact halarm.1.raise n _

/-- R82: a RESET in HELD. -/
theorem State.Live.resetHeld {s : State} {n : StationIx} (h : s.Live n) (hi : (s.station n).input = .held) :
    (s.onStation n Station.resetHeld).Joint := by
  have hloose := (h.1.1 n).loose
  have hedit := Station.Edits.setInsert (s.station n) false
  have hs : ((s.station n).setInsert false).scan = none :=
    hedit.scan.trans (hloose.scan_none (by rw [hi]; decide))
  have hl : ((s.station n).setInsert false).link ≠ .disabled := by rw [hedit.link]; exact h.enabled
  have hempty : (s.station n).typeAhead = [] := (h.1.1 n).2.1.2 (.inl hi)
  have hnew := (hloose.agrees h.enabled hedit.agrees).setInput hl hs (i := .entry) (by decide)
  refine h.1.setStation (hnew.sound_of_empty ?_) (.inr ?_)
  · rw [Station.setInput_typeAhead, hedit.typeAhead, hempty]
  · rw [hi, Station.resetHeld, Station.setInput_input]
    exact ⟨⟨by decide, by decide⟩, ⟨by decide, by decide⟩⟩

/-- R80: an action where it belongs by the input state. -/
theorem State.Live.route {s : State} {n : StationIx} (h : s.Live n) (a : Action) : (s.route n a).Joint := by
  have openScan (hi : (s.station n).input = .entry) (hsome : (s.station n).scan.isSome = true) (a : Action) :
      (s.typeAheadAppend n a).Joint :=
    h.typeAheadAppend (by rw [hi]; decide) (fun hc => by rw [hc.2] at hsome; cases hsome) a
  have inEntry (a : Action) (hi : (s.station n).input = .entry) :
      (if (s.station n).scan.isSome then s.typeAheadAppend n a else s.process n a).Joint := by
    split
    · rename_i hsome
      exact openScan hi hsome a
    · rename_i hnone
      exact h.1.process ⟨hi, by simpa using hnone⟩ a
  unfold State.route
  split
  · exact h.1.raise n _
  · split
    · rename_i hi
      exact h.resetHeld hi
    · rename_i hi
      exact inEntry _ hi
    · exact h.1.setStation ((h.1.1 n).withTypeAhead h.2 (Nat.zero_le _) fun _ => rfl) (.inl ⟨rfl, rfl⟩)
  · split
    · exact h.requestAlarm.1
    · rename_i hi
      exact inEntry _ hi
    · rename_i hheld hentry
      exact h.typeAheadAppend hheld (fun hc => hentry hc.1) a

theorem State.Live.keyDown {s : State} {n : StationIx} (h : s.Live n) (code : Byte) (time : Nat) :
    (s.keyDown n code time).Joint := by
  have hun : (s.onStation n fun st => st.unsuppress code).Live n := by
    refine h.keyState ?_
    unfold Station.unsuppress
    split <;> rfl
  unfold State.keyDown
  split
  · exact (h.keyState (f := fun st => st.suppress code) rfl).1
  · unfold State.takeAction
    split
    · exact (hun.keyState (f := fun st => { st with shiftHolders := addHolder code st.shiftHolders }) rfl).1
    · exact (hun.keyState (f := fun st => { st with altHolders := addHolder code st.altHolders }) rfl).1
    · exact (hun.keyState (f := fun st => { st with rep := none }) rfl).1
    · exact (hun.keyState (f := fun st => st.loadRepeat code _) rfl).route _

theorem State.Live.keyUp {s : State} {n : StationIx} (h : s.Live n) (code : Byte) (time : Nat) :
    (s.onStation n fun st => st.keyUp code time).Joint := by
  refine (h.keyState ?_).1
  unfold Station.keyUp
  split <;> rfl

/-- R34: the repeat timer runs out; it runs only on an ATTACHED link. -/
theorem State.Joint.repeatExpiry {s : State} (h : s.Joint) (n : StationIx) : (s.repeatExpiry n).Joint := by
  unfold State.repeatExpiry
  split
  · exact h
  · rename_i r hr
    have hlive : s.Live n := by
      refine ⟨h, Classical.byContradiction fun hl => ?_⟩
      obtain ⟨-, -, -, ⟨-, hoff, -⟩, -, -⟩ := h.1 n
      obtain ⟨-, -, -, -, hrep, -⟩ := hoff hl
      rw [hrep] at hr
      cases hr
    split
    · rename_i hp
      refine (hlive.keyState
        (f := fun st => { st with rep := some { r with left := st.profile.repeatPeriod } }) rfl).1.process ?_ _
      rw [State.station_onStation_same]
      exact hp
    · exact (hlive.keyState (f := fun st => { st with rep := none }) rfl).1

/-! ### Scans (R115 to R123) -/

theorem Station.LooseSound.dropScan {st : Station} (h : st.LooseSound) (hl : st.link ≠ .disabled) :
    st.dropScan.LooseSound := by
  unfold Station.dropScan
  split
  · obtain ⟨hp, htype, -, hdr, -, herr⟩ := h
    have hmid : ({ st with scan := none } : Station).LooseSound :=
      ⟨hp, htype, fun _ hsc => (nomatch hsc), hdr, fun hd => absurd hd hl, herr⟩
    exact hmid.agrees hl (Station.Edits.markIndicator _).agrees
  · exact h

/-- R112, R122: after a passed exit check no move fails. -/
theorem Station.Edits.scanAdvance (st : Station) (tu : Vector ClassRec 15) (f : Field) :
    st.Edits ((st.passExit f).scanAdvance tu) := by
  have hleave (target : Nat) : (st.passExit f).sheet.leaving target = none := by
    simp [Sheet.leaving, Sheet.editedField, Station.passExit, Station.setEdited]
  refine (passExit st f).trans ?_
  unfold Station.scanAdvance
  split
  · unfold Station.operatorMove
    rw [hleave]
    exact carryOut _ _ _
  · exact refl _

/-- R119 to R122: a closed scan at a station in ENTRY. -/
theorem State.LooseAt.takeScan {s : State} {n : StationIx} (h : s.LooseAt n) (hp : (s.station n).Processing)
    (sc : Scan) : (s.takeScan n sc).LooseAt n ∧ ((s.takeScan n sc).station n).scan = none := by
  obtain ⟨hentry, hscan⟩ := id hp
  have hl : (s.station n).link ≠ .disabled := h.1.enabled (by rw [hentry]; decide)
  have hf : (s.station n).input.Free := by rw [hentry]; exact ⟨by decide, by decide⟩
  unfold State.takeScan
  split
  · have hcount : (s.station n).Agrees { s.station n with scanRejects := (s.station n).scanRejects + 1 } :=
      ⟨rfl, .refl _ _, fun _ hr => hr⟩
    have hheld := Station.enterHeld_heldFrom { s.station n with scanRejects := (s.station n).scanRejects + 1 } .scanReject
    refine ⟨h.setStation ((h.1.agrees hl hcount).held hl hscan hheld) (.inr ⟨hf, ?_⟩), ?_⟩
    · rw [Station.rejectScan, hheld.input]; exact ⟨by decide, by decide⟩
    · rw [State.station_onStation_same, Station.rejectScan, hheld.scan]; exact hscan
  · rename_i f _
    have hplaced := Station.Edits.placeScan (s.station n) s.classes f sc
    dsimp only
    split
    · rename_i e _
      have ha : (s.station n).Acts (((s.station n).placeScan s.classes f sc).failCheck f e) :=
        .inr (hplaced.trans_held (Station.failCheck_heldFrom _ f e))
      refine ⟨h.acts hl hscan hf ha, ?_⟩
      rw [State.station_setStation_same, ha.scan]
      exact hscan
    · have ha := hplaced.trans (.scanAdvance _ s.classes f)
      have ht := h.acts hl hscan hf (.inl ha)
      have hp' : ((s.setStation n ((((s.station n).placeScan s.classes f sc).passExit f).scanAdvance
          s.classes)).station n).Processing := by
        rw [State.station_setStation_same]
        exact ⟨ha.input.trans hentry, ha.scan.trans hscan⟩
      unfold State.scanRelease
      split
      · exact ⟨ht, hp'.2⟩
      · obtain ⟨hrel, hs, -⟩ := ht.release hp' ((State.setStation s n _).station n).profile.releaseCode .normal true
        exact ⟨hrel, hs⟩

/-- R117, R123: a scan closes. -/
theorem State.Joint.closeScan {s : State} (h : s.Joint) (n : StationIx) : (s.closeScan n).Joint := by
  unfold State.closeScan
  split
  · exact h
  · rename_i sc hsc
    obtain ⟨-, -, hscan, -⟩ := h.1 n
    obtain ⟨hentry, hlink, -⟩ := hscan sc hsc
    have hl : (s.station n).link ≠ .disabled := by rw [hlink]; decide
    have hdrop : (s.onStation n Station.dropScan).LooseAt n :=
      (h.looseAt n).setStation ((h.1 n).loose.dropScan hl)
        (.inl ⟨Station.dropScan_input _, Station.dropScan_sheet _⟩)
    have hp : ((s.onStation n Station.dropScan).station n).Processing := by
      rw [State.station_onStation_same]
      exact ⟨(Station.dropScan_input _).trans hentry, Station.dropScan_scan _⟩
    obtain ⟨ht, hs⟩ := hdrop.takeScan hp sc
    exact ht.replay hs

/-- R115: a scan opens. -/
theorem Station.Sound.openScan {st : Station} (h : st.Sound) (hl : st.link = .attached) (hp : st.Processing)
    (c : Byte) : (st.openScan c).Sound := by
  have hempty := (st.sound_iff_loose.mp h).2 hp.1 hp.2
  obtain ⟨hprof, -, -, hdr, -, herr⟩ := h
  have hon : st.link ≠ .disabled := by rw [hl]; decide
  have hmid : ({ st with scan := some { buffer := [c], overflow := false, gapLeft := st.profile.gap }, rep := none } :
      Station).Sound := by
    refine ⟨hprof, ⟨by simp [hempty], fun _ => hempty⟩, fun sc hsc => ?_, hdr.marked rfl (.refl _ _) fun _ _ => rfl,
      fun hd => absurd hd hon, herr⟩
    cases hsc
    exact ⟨hp.1, hl, Nat.le_refl 1, Nat.le_of_ble_eq_true rfl⟩
  exact hmid.agrees hon (Station.Edits.markIndicator _).agrees

/-- R116: an open scan grows. -/
theorem Station.Sound.growScan {st : Station} (h : st.Sound) {sc : Scan} (hsc : st.scan = some sc) (c : Byte) :
    (st.growScan sc c).Sound := by
  obtain ⟨hprof, ⟨hlen, hempty⟩, hscan, hdr, -, herr⟩ := h
  obtain ⟨hi, hl, hlow, hhigh⟩ := hscan sc hsc
  refine ⟨hprof, ⟨hlen, ?_⟩, fun sc' hsc' => ⟨hi, hl, ?_⟩, hdr, fun hd => ?_, herr⟩
  · rintro (hc | ⟨-, hc⟩ | hc)
    · exact hempty (.inl hc)
    · cases hc
    · exact hempty (.inr (.inr hc))
  · cases hsc'
    split
    · rename_i hroom
      unfold scanBufferSize at hroom
      simp only [List.length_append, List.length_singleton]
      omega
    · exact ⟨hlow, hhigh⟩
  · have hd : st.link = .disabled := hd
    rw [hl] at hd
    cases hd

theorem State.Live.scanChar {s : State} {n : StationIx} (h : s.Live n) (c : Byte) : (s.scanChar n c).Joint := by
  unfold State.scanChar
  split
  · rename_i hnone
    split
    · exact h.1
    · split
      · rename_i hi
        refine h.1.setStation ((h.1.1 n).openScan h.2 ⟨hi, hnone⟩ c) (.inl ⟨?_, ?_⟩) <;> simp [Station.openScan]
      · have halarm := (h.keyState (f := fun st => { st with scanRejects := st.scanRejects + 1 }) rfl).requestAlarm
        rw [State.onStation_onStation] at halarm
        exact halarm.1
  · rename_i sc hsc
    split
    · exact h.1.closeScan n
    · exact h.1.setStation ((h.1.1 n).growScan hsc c) (.inl ⟨rfl, rfl⟩)

/-! ### Links (R24 to R29, R38 to R42, R193) -/

/-- A changed display refresh unit at a station in service. -/
theorem Station.Sound.withRefresh {st : Station} (h : st.Sound) (hl : st.link ≠ .disabled) {dr : Refresh}
    (hdr : ({ st with dr := dr } : Station).RefreshSound) : ({ st with dr := dr } : Station).Sound := by
  obtain ⟨hp, htype, hscan, -, -, herr⟩ := h
  exact ⟨hp, htype, hscan, hdr, fun hd => absurd hd hl, herr⟩

theorem Station.Sound.disabled_dr {st : Station} (h : st.Sound) (hl : st.link = .disabled) :
    st.dr = Refresh.atReset := by
  obtain ⟨-, -, -, -, hdis, -⟩ := h
  rw [hdis hl]
  rfl

/-- A change of the display refresh unit alone. -/
theorem State.Joint.withRefresh {s : State} (h : s.Joint) {n : StationIx} {f : Station → Station}
    (hf : ∃ dr, f (s.station n) = { s.station n with dr := dr }) (hst : (f (s.station n)).Sound) :
    (s.onStation n f).Joint := by
  obtain ⟨dr, hdr⟩ := hf
  exact h.onStation hst (.inl ⟨by rw [hdr], by rw [hdr]⟩)

theorem Station.Sound.dropRx {st : Station} (h : st.Sound) : st.dropRx.Sound := by
  by_cases hl : st.link = .disabled
  · have : st.dropRx = st := by
      unfold Station.dropRx
      rw [h.disabled_dr hl]
      conv_rhs => rw [show st = { st with dr := Refresh.atReset } by rw [← h.disabled_dr hl]]
      rfl
    rw [this]
    exact h
  · obtain ⟨-, -, -, hdr, -, -⟩ := id h
    exact h.withRefresh hl hdr

theorem State.Joint.dropRx {s : State} (h : s.Joint) (n : StationIx) : (s.onStation n Station.dropRx).Joint :=
  h.withRefresh ⟨_, rfl⟩ (h.1 n).dropRx

/-- R25: the link attaches. -/
theorem Station.Sound.attach {st : Station} (h : st.Sound) (hl : st.link = .detached) : st.attach.Sound := by
  obtain ⟨hp, ⟨hlen, hempty⟩, hscan, ⟨-, -, hprobe⟩, -, herr⟩ := h
  have hnotype : st.typeAhead = [] := hempty (.inr (.inr (by rw [hl]; decide)))
  have hmid : ({ st with link := .attached, dr := { st.dr with silence := some 2000, paused := false } } :
      Station).Sound :=
    ⟨hp, ⟨hlen, fun _ => hnotype⟩, fun sc hsc => ⟨(hscan sc hsc).1, rfl, (hscan sc hsc).2.2⟩,
      ⟨⟨fun _ => rfl, fun _ => rfl⟩, fun hc => absurd rfl hc, fun _ => hprobe (by rw [hl]; decide)⟩,
      fun hd => (nomatch hd), herr⟩
  exact hmid.agrees (nofun) ((Station.Edits.markLines _ _).trans (.markCursor _)).agrees

/-- R24 to R26: a message received leaves the link of a station in service ATTACHED. -/
theorem State.Joint.signOfLife {s : State} (h : s.Joint) {n : StationIx} (hl : s.listens n = true) :
    (s.signOfLife n).Live n := by
  unfold State.signOfLife
  split
  · rename_i hlink
    have hst := (h.1 n).dropRx.attach (st := (s.station n).dropRx) hlink
    refine ⟨(h.onStation (n := n) (f := fun st => st.dropRx.attach) hst (.inl ⟨?_, ?_⟩)).raise n _, ?_⟩
    · simp [Station.attach, Station.dropRx]
    · simp [Station.attach, Station.dropRx]
    · change ((s.onStation n fun st => st.dropRx.attach).station n).link = .attached
      rw [State.station_onStation_same]
      simp [Station.attach]
  · rename_i hlink
    have hon : (s.station n).dropRx.link ≠ .disabled := by
      change (s.station n).link ≠ .disabled
      rw [hlink]; decide
    obtain ⟨-, -, -, ⟨-, -, hprobe⟩, -, -⟩ := h.1 n
    refine ⟨h.withRefresh ⟨_, rfl⟩ ((h.1 n).dropRx.withRefresh hon
      ⟨⟨fun _ => rfl, fun _ => hlink⟩, fun hc => absurd hlink hc, fun _ => hprobe hon⟩), ?_⟩
    rw [State.station_onStation_same]
    exact hlink
  · rename_i hlink
    simp [State.listens, hlink] at hl

/-- R27: the link detaches. -/
theorem Station.Sound.detach {st : Station} (h : st.Sound) (hl : st.link = .attached) : st.detach.Sound := by
  obtain ⟨hp, -, -, ⟨-, -, hprobe⟩, -, herr⟩ := h
  refine ⟨hp, ⟨Nat.zero_le _, fun _ => rfl⟩, fun sc hsc => (nomatch hsc), ⟨?_, ?_, fun _ => .inl ?_⟩,
    fun hd => (nomatch hd), herr⟩
  · simp [Station.detach, Refresh.atReset]
  · intro _
    exact ⟨rfl, rfl, rfl, rfl, rfl, .inl rfl⟩
  · change (if st.dr.inFlight.isSome then some 500 else st.dr.probe).isSome = true
    split
    · rfl
    · rename_i hidle
      exact (hprobe (by rw [hl]; decide)).resolve_right hidle

theorem State.Joint.silenceExpiry {s : State} (h : s.Joint) (n : StationIx) : (s.silenceExpiry n).Joint := by
  unfold State.silenceExpiry
  split
  · rename_i hc
    exact (h.onStation (n := n) (f := Station.detach) ((h.1 n).detach hc.1) (.inl ⟨rfl, rfl⟩)).raise n _
  · exact h

theorem Station.Sound.probeExpiry {st : Station} (h : st.Sound) : st.probeExpiry.Sound := by
  unfold Station.probeExpiry
  split
  · exact h
  · rename_i k hk
    have hl : st.link ≠ .disabled := fun hd => by
      rw [h.disabled_dr hd] at hk
      cases hk
    obtain ⟨-, -, -, ⟨hsilence, hoff, -⟩, -, -⟩ := id h
    refine h.withRefresh hl ⟨hsilence, fun hd => ?_, fun _ => .inr ?_⟩
    · obtain ⟨h1, h2, h3, h4, h5, h6⟩ := hoff hd
      refine ⟨h1, h2, h3, h4, h5, ?_⟩
      rcases h6 with h6 | h6 <;> simp [h6]
    · dsimp only
      split <;> rfl

theorem Station.probeExpiry_dr (st : Station) : ∃ dr, st.probeExpiry = { st with dr := dr } := by
  unfold Station.probeExpiry
  split
  · exact ⟨_, rfl⟩
  · exact ⟨_, rfl⟩

/-- R38: DR's choice changes the display refresh unit alone, and keeps its probe timer and its silence timer. -/
theorem Station.startMessage_dr (st : Station) :
    st.startMessage = st ∨ (st.link = .attached ∧ ∃ dr, st.startMessage = { st with dr := dr } ∧
      dr.silence = st.dr.silence ∧ dr.inFlight.isSome = true) := by
  unfold Station.startMessage Station.startLine
  split
  · rename_i hc
    have hl := st.attached_iff.mp hc.1
    split
    · exact .inr ⟨hl, _, rfl, rfl, rfl⟩
    · split
      · exact .inr ⟨hl, _, rfl, rfl, rfl⟩
      · split
        · exact .inr ⟨hl, _, rfl, rfl, rfl⟩
        · split
          · exact .inr ⟨hl, _, rfl, rfl, rfl⟩
          · exact .inl rfl
  · exact .inl rfl

theorem State.Joint.startMessage {s : State} (h : s.Joint) (n : StationIx) :
    (s.onStation n Station.startMessage).Joint := by
  rcases (s.station n).startMessage_dr with heq | ⟨hl, dr, heq, hsilence, hfly⟩
  · exact h.withRefresh ⟨_, heq⟩ (by rw [heq]; exact h.1 n)
  · obtain ⟨-, -, -, ⟨hsil, -, -⟩, -, -⟩ := h.1 n
    refine h.withRefresh ⟨dr, heq⟩ ?_
    rw [heq]
    refine (h.1 n).withRefresh (by rw [hl]; decide) ⟨?_, fun hd => absurd hl hd, fun _ => .inr hfly⟩
    rw [hsilence]
    exact hsil

theorem Station.Sound.completeMessage {st : Station} (h : st.Sound) : st.completeMessage.Sound := by
  unfold Station.completeMessage
  split
  · rename_i m hm
    have hl : st.link ≠ .disabled := fun hd => by
      rw [h.disabled_dr hd] at hm
      cases hm
    obtain ⟨-, -, -, ⟨hsilence, hoff, -⟩, -, -⟩ := id h
    refine h.withRefresh hl ⟨hsilence, fun hd => ?_, fun _ => .inl rfl⟩
    obtain ⟨h1, h2, h3, h4, h5, -⟩ := hoff hd
    exact ⟨h1, h2, h3, h4, h5, .inl rfl⟩
  · exact h

theorem Station.completeMessage_dr (st : Station) : ∃ dr, st.completeMessage = { st with dr := dr } := by
  unfold Station.completeMessage
  split
  · exact ⟨_, rfl⟩
  · exact ⟨_, rfl⟩

theorem State.listens_iff (s : State) (n : StationIx) : s.listens n = true ↔ (s.station n).link ≠ .disabled := by
  simp [State.listens]

/-- Every operation of a station link keeps the stations and the releases sound. -/
theorem LinkOp.joint {s : State} (h : s.Joint) (n : StationIx) (op : LinkOp) : (op.apply s n).Joint := by
  cases op with
  | key code down time =>
    change (s.keyMessage n code down time).Joint
    unfold State.keyMessage
    split
    · rename_i hl
      split
      · split
        · exact (h.signOfLife hl).keyDown code time
        · exact (h.signOfLife hl).keyUp code time
      · exact h.dropRx n
    · exact h
  | scan c =>
    change (s.scanMessage n c).Joint
    unfold State.scanMessage
    split
    · rename_i hl
      exact (h.signOfLife hl).scanChar c
    · exact h
  | pause f =>
    change (s.pauseMessage n f).Joint
    unfold State.pauseMessage
    split
    · rename_i hl
      have hlive := h.signOfLife hl
      obtain ⟨-, -, -, ⟨hsilence, -, hprobe⟩, -, -⟩ := hlive.1.1 n
      exact hlive.1.withRefresh ⟨_, rfl⟩ ((hlive.1.1 n).withRefresh hlive.enabled
        ⟨hsilence, fun hd => absurd hlive.2 hd, hprobe⟩)
    · exact h
  | present =>
    change (s.signOfLife n).Joint
    cases hl : s.listens n with
    | true => exact (h.signOfLife hl).1
    | false =>
      unfold State.signOfLife
      rw [show (s.station n).link = .disabled by simpa [State.listens] using hl]
      exact h
  | expect part =>
    unfold LinkOp.apply
    dsimp only
    split
    · rename_i hl
      obtain ⟨-, -, -, hdr, -, -⟩ := h.1 n
      exact h.withRefresh ⟨_, rfl⟩ ((h.1 n).withRefresh ((s.listens_iff n).mp hl) hdr)
    · exact h
  | dropRx => exact h.dropRx n
  | silence => exact h.silenceExpiry n
  | rep => exact h.repeatExpiry n
  | gap => exact h.closeScan n
  | probe => exact h.withRefresh (Station.probeExpiry_dr _) (h.1 n).probeExpiry
  | start => exact h.startMessage n
  | complete => exact h.withRefresh (Station.completeMessage_dr _) (h.1 n).completeMessage

end Sys2Proof.Machine
end

section
/-! SUPPORT. Sound stations and sound releases through the host's requests, and the invariant of both (O58). -/

namespace Sys2Proof.Machine

/-! ### Which requests are answered with a RELEASE (R137) -/

theorem toStation_reply {P : Reply → Prop} {st : Byte} {s : State} {handle : StationIx → Reply × State}
    (hs : P (refuseStation st)) (h : ∀ n, P (handle n).1) : P (toStation st s handle).1 := by
  unfold toStation
  split
  · exact h _
  · exact hs

theorem toController_reply {P : Reply → Prop} {st : Byte} {s : State} {handled : Reply × State}
    (hs : P (refuseStation st)) (h : P handled.1) : P (toController st s handled).1 := by
  unfold toController
  split
  · exact h
  · exact hs

/-- No RELEASE. -/
def Reply.Plain (r : Reply) : Prop := r.kind ≠ .release

theorem Reply.plain_refuse (reason : Reason) (subcode detail : Nat) : (refuse reason subcode detail).Plain := nofun
theorem Reply.plain_accept (payload : List Byte) : (accept payload).Plain := nofun

theorem walkStream_error_plain {busy : Bool} {fuel offset : Nat} {bytes : List Byte} {r : Reply}
    (h : walkStream busy fuel offset bytes = .error r) : r.Plain := by
  induction fuel generalizing offset bytes with
  | zero => cases bytes <;> cases h
  | succ fuel ih =>
    cases bytes with
    | nil => cases h
    | cons code bytes =>
      unfold walkStream at h
      split at h
      · cases h; exact Reply.plain_refuse _ _ _
      · cases h; exact Reply.plain_refuse _ _ _
      · split at h
        · cases h; exact Reply.plain_refuse _ _ _
        · split at h
          · rename_i hw
            cases h
            exact ih hw
          · cases h

theorem handleWrite_plain (n : StationIx) (p : List Byte) (s : State) : (handleWrite n p s).1.Plain := by
  unfold handleWrite
  split
  · exact Reply.plain_refuse _ _ _
  · split
    · exact Reply.plain_refuse _ _ _
    · split
      · exact Reply.plain_refuse _ _ _
      · split
        · rename_i hw
          exact walkStream_error_plain hw
        · unfold State.applyWrite
          dsimp only
          split
          · exact Reply.plain_refuse _ _ _
          · exact Reply.plain_accept _

theorem handleReadForm_plain (n : StationIx) (p : List Byte) (s : State) : (handleReadForm n p s).1.Plain := by
  unfold handleReadForm
  repeat' split
  all_goals exact nofun

theorem handleStationRead_plain (p : List Byte) (s : State) : (handleStationRead p s).1.Plain := by
  unfold handleStationRead
  repeat' split
  all_goals exact nofun

theorem handleStationSetup_plain (p : List Byte) (s : State) : (handleStationSetup p s).1.Plain := by
  unfold handleStationSetup
  repeat' split
  all_goals exact nofun

theorem classFault_plain {cls chars rule : Byte} {low high : Nat} {r : Reply}
    (h : classFault cls chars rule low high = some r) : r.Plain := by
  unfold classFault at h
  repeat' split at h
  all_goals cases h
  all_goals exact nofun

theorem handleClassSet_plain (p : List Byte) (s : State) : (handleClassSet p s).1.Plain := by
  unfold handleClassSet
  split
  · split
    · split
      · rename_i hf
        exact classFault_plain hf
      · exact nofun
    · exact nofun
  · exact nofun

theorem handleKeymapSet_plain (p : List Byte) (s : State) : (handleKeymapSet p s).1.Plain := by
  unfold handleKeymapSet
  repeat' split
  all_goals exact nofun

theorem handleAttentionClear_plain (p : List Byte) (s : State) : (handleAttentionClear p s).1.Plain := by
  unfold handleAttentionClear
  repeat' split
  all_goals exact nofun

theorem openFault_plain {st : Store} {form : Byte} {first count : Nat} {r : Reply}
    (h : st.openFault form first count = some r) : r.Plain := by
  unfold Store.openFault at h
  repeat' split at h
  all_goals cases h
  all_goals exact nofun

theorem handleLoadOpen_plain (p : List Byte) (s : State) : (handleLoadOpen p s).1.Plain := by
  unfold handleLoadOpen
  split
  · exact nofun
  · split
    · exact nofun
    · split
      · split
        · exact nofun
        · split
          · rename_i hf
            exact openFault_plain hf
          · exact nofun
      · exact nofun

theorem handleLoadData_plain (p : List Byte) (s : State) : (handleLoadData p s).1.Plain := by
  unfold handleLoadData
  repeat' split
  all_goals exact nofun

theorem handleLoadClose_plain (p : List Byte) (s : State) : (handleLoadClose p s).1.Plain := by
  unfold handleLoadClose
  repeat' split
  all_goals exact nofun

theorem handleLoadAbandon_plain (p : List Byte) (s : State) : (handleLoadAbandon p s).1.Plain := by
  unfold handleLoadAbandon
  repeat' split
  all_goals exact nofun

theorem handleEraseSlots_plain (p : List Byte) (s : State) : (handleEraseSlots p s).1.Plain := by
  unfold handleEraseSlots
  dsimp only
  repeat' split
  all_goals exact nofun

theorem handleProtect_plain (p : List Byte) (s : State) : (handleProtect p s).1.Plain := by
  unfold handleProtect
  repeat' split
  all_goals exact nofun

/-- The answer of a request that reads the controller. -/
theorem ite_plain {c : Prop} [Decidable c] {a b : Reply × State} (ha : a.1.Plain) (hb : b.1.Plain) :
    (if c then a else b).1.Plain := by
  split
  · exact ha
  · exact hb

theorem State.handle_plain (s : State) {k : DownKind} (hk : k ≠ .poll) (st : Byte) (p : List Byte) :
    (s.handle k st p).1.Plain := by
  have hst : (refuseStation st).Plain := Reply.plain_refuse _ _ _
  cases k
  case poll => exact absurd rfl hk
  case write => exact toStation_reply hst fun n => handleWrite_plain n p s
  case readForm => exact toStation_reply hst fun n => handleReadForm_plain n p s
  case status => exact toController_reply hst (ite_plain nofun nofun)
  case stationSetup => exact toController_reply hst (handleStationSetup_plain p s)
  case stationRead => exact toController_reply hst (handleStationRead_plain p s)
  case classSet => exact toController_reply hst (handleClassSet_plain p s)
  case keymapSet => exact toController_reply hst (handleKeymapSet_plain p s)
  case attentionRead => exact toController_reply hst (ite_plain nofun nofun)
  case attentionClear => exact toController_reply hst (handleAttentionClear_plain p s)
  case attentionMask =>
    refine toController_reply hst ?_
    unfold handleAttentionMask
    split <;> exact nofun
  case countersRead => exact toController_reply hst (ite_plain nofun nofun)
  case broadcastMessage => exact toController_reply hst (ite_plain nofun nofun)
  case restart => exact toController_reply hst (ite_plain nofun nofun)
  case directoryRead => exact toController_reply hst (ite_plain nofun nofun)
  case loadOpen => exact toController_reply hst (handleLoadOpen_plain p s)
  case loadData => exact toController_reply hst (handleLoadData_plain p s)
  case loadClose => exact toController_reply hst (handleLoadClose_plain p s)
  case loadAbandon => exact toController_reply hst (handleLoadAbandon_plain p s)
  case eraseSlots => exact toController_reply hst (handleEraseSlots_plain p s)
  case protect => exact toController_reply hst (handleProtect_plain p s)

theorem ReleaseQueue.oldest_mem {q : ReleaseQueue} {r : Record} (h : q.oldest = some r) : r ∈ q.queue := by
  unfold ReleaseQueue.oldest at h
  rcases Option.or_eq_some_iff.mp h with h | ⟨-, h⟩
  · exact List.mem_of_find?_eq_some h
  · exact List.mem_of_head? h

theorem pollReply_release {o : Option Record} (h : (pollReply o).kind = .release) :
    ∃ r, o = some r ∧ pollReply o = releaseReply r := by
  cases o with
  | none => cases h
  | some r => exact ⟨r, rfl, rfl⟩

/-- R137: a POLL answered with a RELEASE hands over a record of the queue. -/
theorem handlePoll_release {n : Option StationIx} {p : List Byte} {s : State}
    (h : (handlePoll n p s).1.kind = .release) : ∃ r ∈ s.rq.queue, (handlePoll n p s).1 = releaseReply r := by
  unfold handlePoll at h ⊢
  split at h
  · rename_i hp
    rw [if_pos hp]
    obtain ⟨r, ho, hr⟩ := pollReply_release h
    refine ⟨r, ?_, hr⟩
    cases n with
    | none => exact ReleaseQueue.oldest_mem ho
    | some n => exact List.mem_of_find?_eq_some ho
  · cases h

theorem State.handle_release {s : State} {k : DownKind} {st : Byte} {p : List Byte}
    (h : (s.handle k st p).1.kind = .release) : ∃ r ∈ s.rq.queue, (s.handle k st p).1 = releaseReply r := by
  by_cases hk : k = .poll
  · subst hk
    have hpoll : s.handle .poll st p =
        if st = 0x00#8 then handlePoll none p s else toStation st s fun n => handlePoll (some n) p s := rfl
    rw [hpoll] at h ⊢
    split at h
    · rename_i hst
      rw [if_pos hst]
      exact handlePoll_release h
    · rename_i hst
      rw [if_neg hst]
      unfold toStation at h ⊢
      revert h
      cases stationOf st with
      | none => exact fun h => nomatch h
      | some n => exact fun h => handlePoll_release h
  · exact absurd h (s.handle_plain hk st p)

/-! ### STATION SETUP and BROADCAST MESSAGE (R28, R29, R183, R190) -/

theorem profileOf_sound (enable : Byte) (keyMap : Fin 4) (delay period : Nat) (chatter suffix gap advance : Byte)
    {code : Byte} (hcode : code.toNat ≤ 0xEF) :
    (profileOf enable keyMap delay period chatter suffix gap advance code).Sound := by
  unfold Profile.Sound profileOf clamp
  dsimp only
  exact ⟨by omega, by omega, by omega, by omega, hcode⟩

/-- R28, R29: a station enabled or disabled. -/
theorem Station.cleared_sound (st : Station) {p : Profile} (hp : p.Sound) {link : LinkState} {probe : Option Nat}
    (hl : link ≠ .attached) (hprobe : (link = .disabled ∧ probe = none) ∨ probe.isSome = true) :
    link = .detached ∨ probe = none → (st.cleared p link probe).Sound := by
  intro hlink
  refine ⟨hp, ⟨Nat.zero_le _, fun _ => rfl⟩, fun sc hsc => (nomatch hsc), ⟨⟨fun ha => absurd ha hl, fun hs => (nomatch hs)⟩,
    fun _ => ⟨rfl, rfl, rfl, rfl, rfl, .inl rfl⟩, fun hd => .inl ?_⟩, fun hd => ?_, fun hh => (nomatch hh)⟩
  · exact hprobe.resolve_left fun hc => hd hc.1
  · have hd : link = .disabled := hd
    subst hd
    obtain rfl := hlink.resolve_left (by decide)
    rfl

theorem Station.enable_sound (st : Station) {p : Profile} (hp : p.Sound) : (st.enable p).Sound :=
  st.cleared_sound hp (by decide) (.inr rfl) (.inl rfl)

theorem Station.disable_sound (st : Station) {p : Profile} (hp : p.Sound) : (st.disable p).Sound :=
  st.cleared_sound hp (by decide) (.inl ⟨rfl, rfl⟩) (.inr rfl)

theorem Station.Sound.withProfile {st : Station} (h : st.Sound) {p : Profile} (hp : p.Sound) :
    ({ st with profile := p } : Station).Sound := by
  obtain ⟨-, htype, hscan, hdr, hdis, herr⟩ := h
  refine ⟨hp, htype, hscan, hdr, fun hd => ?_, herr⟩
  rw [hdis hd]

theorem Station.free_of_releasePending {st : Station} (h : st.releasePending = false) : st.input.Free := by
  simpa [Station.releasePending, InputState.Free] using h

theorem State.Joint.disable {s : State} (h : s.Joint) (ha : s.answer = none) (n : StationIx) {p : Profile}
    (hp : p.Sound) : (s.disable n p).Joint := by
  unfold State.disable
  split
  · exact h.discardRelease ha (Station.disable_sound _ hp) ⟨nofun, nofun⟩
  · rename_i hpend
    exact h.setStation (Station.disable_sound _ hp)
      (.inr ⟨Station.free_of_releasePending (by simpa using hpend), ⟨nofun, nofun⟩⟩)

theorem State.Joint.setup {s : State} (h : s.Joint) (ha : s.answer = none) (n : StationIx) {p : Profile}
    (hp : p.Sound) : (s.setup n p).Joint := by
  unfold State.setup
  split
  · rename_i hl
    refine h.onStation (Station.enable_sound _ hp) (.inr ⟨?_, ⟨nofun, nofun⟩⟩)
    obtain ⟨-, -, -, -, hdis, -⟩ := h.1 n
    rw [hdis hl]
    exact ⟨nofun, nofun⟩
  · exact h.setStation ((h.1 n).withProfile hp) (.inl ⟨rfl, rfl⟩)
  · exact h.setStation ((h.1 n).withProfile hp) (.inl ⟨rfl, rfl⟩)
  · exact h.disable ha n hp

theorem handleStationSetup_joint {s : State} (h : s.Joint) (ha : s.answer = none) (p : List Byte) :
    (handleStationSetup p s).2.Joint := by
  unfold handleStationSetup
  split
  · split
    · exact h
    · split
      · split
        · exact h
        · rename_i hcode
          exact h.setup ha _ (profileOf_sound _ _ _ _ _ _ _ _ (Nat.le_of_not_lt hcode))
      · exact h
  · exact h

/-- Releases rest on the input states and the sheets of the stations. -/
theorem State.ReleasesSound.of_places {s t : State} (h : s.ReleasesSound)
    (hst : ∀ n, (t.station n).input = (s.station n).input ∧ (t.station n).sheet = (s.station n).sheet)
    (hrq : t.rq = s.rq) (ha : t.answer = s.answer) : t.ReleasesSound := by
  obtain ⟨hstage, ⟨hq, hr, hown⟩, ⟨hsize, hhead⟩, hand⟩ := h
  refine ⟨hrq ▸ hstage, ⟨hrq ▸ hq, hrq ▸ hr, fun n => ?_⟩, ⟨fun e he => ?_, hrq ▸ hhead⟩, ?_⟩
  · rw [(hst n).1, hrq]; exact hown n
  · rw [(hst e.station).2]; exact hsize e (hrq ▸ he)
  · intro a hx hk
    rw [hrq]
    exact hand a (ha ▸ hx) hk

theorem State.station_broadcast (s : State) (chars : List Byte) (n : StationIx) :
    (s.broadcast chars).station n =
      if (s.station n).reached then (s.station n).setMessage (chars.map toPrintable) else s.station n := by
  simp only [State.broadcast, State.station, Fin.getElem_fin, Vector.getElem_map]
  rfl

theorem State.Joint.broadcast {s : State} (h : s.Joint) (chars : List Byte) : (s.broadcast chars).Joint := by
  refine ⟨fun n => ?_, h.2.of_places (fun n => ?_) rfl rfl⟩
  · rw [State.station_broadcast]
    split
    · rename_i hr
      exact (h.1 n).agrees (by simpa [Station.reached] using hr) (Station.setMessage_writes _ _).agrees
    · exact h.1 n
  · rw [State.station_broadcast]
    split
    · exact ⟨Station.setMessage_input _ _, Station.setMessage_sheet _ _⟩
    · exact ⟨rfl, rfl⟩

/-! ### WRITE (R46 to R70) -/

theorem State.station_serveList_ne {es : List RoomEntry} {n : StationIx} (hn : ∀ e ∈ es, e.station ≠ n) (s : State) :
    (State.serveList es s).station n = s.station n := by
  induction es generalizing s with
  | nil => rfl
  | cons e es ih =>
    obtain ⟨he, hes⟩ := List.forall_mem_cons.mp hn
    unfold State.serveList
    split
    · rw [ih hes, State.station_enqueue, if_neg he.symm]
    · rfl

/-- R140: the station whose release is discarded is not served. -/
theorem State.station_discardRelease (s : State) (n : StationIx) : (s.discardRelease n).station n = s.station n :=
  State.station_serveList_ne (es := s.rq.rooms.filter fun e => e.station != n) (by simp) _

/-- R50, R51: before the directives a station in service has no release, and everything is sound. -/
theorem State.Joint.beforeDirectives {s : State} (h : s.Joint) (ha : s.answer = none) {n : StationIx}
    (hl : (s.station n).link ≠ .disabled) :
    (s.beforeDirectives n).Joint ∧ ((s.beforeDirectives n).station n).link ≠ .disabled ∧
      ((s.beforeDirectives n).station n).input.Free := by
  unfold State.beforeDirectives
  split
  · rename_i hpend
    have hwaits : (s.station n).input = .released ∨ (s.station n).input = .roomWait := by
      simpa [Station.releasePending] using hpend
    have hscan : (s.station n).scan = none :=
      (h.1 n).loose.scan_none (by rcases hwaits with hi | hi <;> rw [hi] <;> decide)
    have hst : (((s.station n).setInput .locked).setEdited none).Sound := by
      have hlocked := ((h.1 n).loose.setInput hl hscan (i := .locked) (by decide)).sound_of_input (by simp)
      exact hlocked.agrees (by rw [Station.setInput_link]; exact hl) (Station.Edits.setEdited _ _).agrees
    have hinput : (((s.station n).setInput .locked).setEdited none).input = .locked := by simp
    have heq : (((s.discardRelease n).onStation n fun st => st.setInput .locked).onStation n fun st =>
        st.setEdited none) =
        (s.discardRelease n).setStation n (((s.station n).setInput .locked).setEdited none) := by
      rw [State.onStation_onStation, State.onStation, State.station_discardRelease]
      rfl
    rw [heq, State.station_setStation_same]
    have hfree : (((s.station n).setInput .locked).setEdited none).input.Free := by
      rw [hinput]; exact ⟨nofun, nofun⟩
    refine ⟨h.discardRelease ha hst hfree, ?_, hfree⟩
    rw [(Station.Edits.setEdited _ _).link, Station.setInput_link]
    exact hl
  · rename_i hpend
    have hfree := Station.free_of_releasePending (by simpa using hpend)
    rw [State.station_onStation_same]
    exact ⟨h.setStation ((h.1 n).agrees hl (Station.Edits.setEdited _ _).agrees) (.inr ⟨hfree, hfree⟩), hl, hfree⟩

/-- R68: the LOCK or UNLOCK step; the type-ahead queue of a station that enters ENTRY is left to be replayed. -/
theorem Station.Sound.lockStep {st : Station} (h : st.Sound) (hl : st.link ≠ .disabled) (hf : st.input.Free)
    (flags : Byte) :
    (st.lockStep flags).LooseSound ∧ (st.lockStep flags).link = st.link ∧ (st.lockStep flags).input.Free ∧
      (st.replaysOn flags = true → (st.lockStep flags).scan = none) ∧
      (st.replaysOn flags = false → (st.lockStep flags).Sound) := by
  have hstep : st.lockStep flags =
      if flagUnlock flags then st.setInput .entry
      else if flagLock flags then st.dropScan.setInput .locked else st := by
    unfold Station.lockStep
    split
    · rename_i hi; exact absurd hi hf.1
    · rename_i hi; exact absurd hi hf.2
    · rfl
  rw [hstep]
  unfold Station.replaysOn
  split
  · rename_i hunlock
    by_cases he : st.input = .entry
    · rw [Station.setInput, if_pos he]
      exact ⟨h.loose, rfl, hf, by simp [hunlock, he], fun _ => h⟩
    · have hscan := h.loose.scan_none he
      have hnew := h.loose.setInput hl hscan (i := .entry) (by decide)
      refine ⟨hnew, Station.setInput_link _ _, by simp [InputState.Free], fun _ => by simpa using hscan, fun hno => ?_⟩
      refine hnew.sound_of_empty ?_
      have hheld : st.input = .held := by
        obtain ⟨hf1, hf2⟩ := hf
        cases hi : st.input <;> simp_all
      rw [Station.setInput_typeAhead]
      exact h.2.1.2 (.inl hheld)
  · rename_i hunlock
    split
    · have hnew := (h.loose.dropScan hl).setInput (by rw [Station.dropScan_link]; exact hl)
        (Station.dropScan_scan st) (i := .locked) (by decide)
      exact ⟨hnew, by simp, by simp [InputState.Free], by simp, fun _ => hnew.sound_of_input (by simp)⟩
    · exact ⟨h.loose, rfl, hf, by simp [hunlock], fun _ => h⟩

theorem Station.Sound.requestAlarm {st : Station} (h : st.Sound) : st.requestAlarm.Sound := by
  by_cases hl : st.link = .attached
  · exact h.agrees (by rw [hl]; decide) (Station.Edits.requestAlarm st).agrees
  · have : st.requestAlarm = st := by
      unfold Station.requestAlarm
      rw [if_neg (by simpa [st.attached_iff] using hl)]
    rw [this]
    exact h

/-- R67 to R69: the completion flags at a station in service with no release. -/
theorem State.Joint.applyFlags {s : State} (h : s.Joint) {n : StationIx} (hl : (s.station n).link ≠ .disabled)
    (hf : (s.station n).input.Free) (flags : Byte) : (s.applyFlags n flags).Joint := by
  have huntouch : (s.station n).Edits
      (if flagUntouch flags then { s.station n with sheet := (s.station n).sheet.untouchAll } else s.station n) := by
    split
    · exact .sheet _ _
    · exact .refl _
  unfold State.applyFlags State.flagsToLock
  dsimp only
  revert huntouch
  generalize hu : (if flagUntouch flags then { s.station n with sheet := (s.station n).sheet.untouchAll }
    else s.station n) = u
  intro huntouch
  have hon : (s.onStation n fun st =>
      (if flagUntouch flags then { st with sheet := st.sheet.untouchAll } else st).lockStep flags) =
      s.setStation n (u.lockStep flags) := by rw [← hu]; rfl
  have hreplays : (s.station n).replaysOn flags = u.replaysOn flags := by
    unfold Station.replaysOn
    rw [huntouch.input]
  obtain ⟨hloose, -, hfree, hscan, hsound⟩ :=
    ((h.1 n).agrees hl huntouch.agrees).lockStep (by rw [huntouch.link]; exact hl)
      (by rw [huntouch.input]; exact hf) flags
  have ht := (h.looseAt n).setStation hloose (.inr ⟨hf, hfree⟩)
  have hreplayed : (if (s.station n).replaysOn flags then (s.setStation n (u.lockStep flags)).replay n
      else s.setStation n (u.lockStep flags)).Joint := by
    rw [hreplays]
    split
    · rename_i hr
      exact ht.replay (by rw [State.station_setStation_same]; exact hscan hr)
    · rename_i hr
      exact ht.joint (by rw [State.station_setStation_same]; exact hsound (by simpa using hr))
  rw [hon]
  split
  · exact hreplayed.setStation (hreplayed.1 n).requestAlarm
      (.inl ⟨Station.requestAlarm_input _, Station.requestAlarm_sheet _⟩)
  · exact hreplayed

theorem handleWrite_joint {s : State} (h : s.Joint) (ha : s.answer = none) (n : StationIx) (p : List Byte) :
    (handleWrite n p s).2.Joint := by
  unfold handleWrite
  split
  · exact h
  · rename_i hl
    split
    · exact h
    · rename_i flags stream
      split
      · exact h
      · split
        · exact h
        · rename_i ds _
          obtain ⟨hbefore, hl', hf⟩ := h.beforeDirectives ha hl
          have hwrites := applyStream_writes (s.beforeDirectives n).store ds ⟨0, 0, 0⟩ ((s.beforeDirectives n).station n)
          have hfree : (applyStream (s.beforeDirectives n).store ds ⟨0, 0, 0⟩
              ((s.beforeDirectives n).station n)).2.2.input.Free := by rw [hwrites.1]; exact hf
          have hwritten := hbefore.setStation ((hbefore.1 n).agrees hl' hwrites.agrees) (.inr ⟨hf, hfree⟩)
          have hlink : (applyStream (s.beforeDirectives n).store ds ⟨0, 0, 0⟩
              ((s.beforeDirectives n).station n)).2.2.link ≠ .disabled := by rw [hwrites.1]; exact hl'
          unfold State.applyWrite
          dsimp only
          split
          · rename_i happly
            rw [happly] at hwritten
            exact hwritten
          · rename_i happly
            rw [happly] at hwritten hfree hlink
            exact hwritten.applyFlags (by rw [State.station_setStation_same]; exact hlink)
              (by rw [State.station_setStation_same]; exact hfree) flags

/-! ### Commands and steps -/

theorem State.handle_changes_joint {s : State} (h : s.Joint) (ha : s.answer = none) {k : DownKind}
    (hk : k.changesStations = true) (st : Byte) (p : List Byte) : (s.handle k st p).2.Joint := by
  cases k <;> cases hk
  case write => exact toStation_keeps (P := State.Joint) h fun n => handleWrite_joint h ha n p
  case stationSetup => exact toController_keeps (P := State.Joint) h (handleStationSetup_joint h ha p)
  case broadcastMessage =>
    refine toController_keeps (P := State.Joint) h ?_
    unfold handleBroadcast
    split
    · exact h
    · exact h.broadcast p

theorem State.handle_joint {s : State} (h : s.Joint) (ha : s.answer = none) (k : DownKind) (st : Byte) (p : List Byte) :
    (s.handle k st p).2.Joint := by
  cases hk : k.changesStations with
  | false =>
    have hstep := s.handle_controlStep hk st p
    exact h.of_same hstep.station (by rw [hstep]) (by rw [hstep])
  | true => exact State.handle_changes_joint h ha hk st p

/-- R137: an answer composed, a RELEASE only with a record of the queue. -/
theorem State.Joint.respond {s : State} (h : s.Joint) (st : Byte) {r : Reply}
    (hr : r.kind = .release → ∃ q ∈ s.rq.queue, r = releaseReply q) : (s.respond st r).Joint := by
  obtain ⟨hst, hstage, howners, hrooms, -⟩ := h
  refine ⟨hst, hstage, howners, hrooms, fun a ha hk => ?_⟩
  cases ha
  obtain ⟨q, hq, rfl⟩ := hr hk
  exact ⟨q, hq, rfl, rfl⟩

/-- A handling that answers with a RELEASE leaves the state. -/
theorem State.handle_release_state {s : State} {k : DownKind} {st : Byte} {p : List Byte}
    (h : (s.handle k st p).1.kind = .release) :
    ∃ q ∈ (s.handle k st p).2.rq.queue, (s.handle k st p).1 = releaseReply q := by
  have hk : k = .poll := Classical.byContradiction fun hk => s.handle_plain hk st p h
  obtain ⟨q, hq, hr⟩ := s.handle_release h
  refine ⟨q, ?_, hr⟩
  have hstep := s.handle_controlStep (k := k) (by rw [hk]; rfl) st p
  rw [hstep]
  exact hq

theorem Station.atReset_sound : Station.atReset.Sound :=
  ⟨by decide, ⟨by decide, fun _ => rfl⟩, fun sc hsc => (nomatch hsc),
    ⟨⟨fun h => (nomatch h), fun h => (nomatch h)⟩, fun _ => ⟨rfl, rfl, rfl, rfl, rfl, .inl rfl⟩,
      fun h => absurd rfl h⟩, fun _ => rfl, fun h => (nomatch h)⟩

theorem State.afterReset_joint (s : State) (a : Byte) (r : BitVec 2) : (s.afterReset a r).Joint := by
  refine ⟨fun n => (s.station_afterReset a r n).symm ▸ Station.atReset_sound, ⟨rfl, Nat.zero_le _, fun r hr => (nomatch hr)⟩,
    ⟨.nil, .nil, fun n => ?_⟩, ⟨fun e he => (nomatch he), fun e he => (nomatch he)⟩, fun a ha => (nomatch ha)⟩
  rw [s.station_afterReset a r n]
  exact ⟨⟨fun hi => (nomatch hi), fun ⟨_, hr, _⟩ => (nomatch hr)⟩, ⟨fun hi => (nomatch hi), fun ⟨_, he, _⟩ => (nomatch he)⟩⟩

/-- One millisecond at a station's timers. -/
theorem Station.Sound.countDown {st : Station} (h : st.Sound) : st.countDown.Sound := by
  obtain ⟨hp, ⟨hlen, hempty⟩, hscan, ⟨hsilence, hoff, hprobe⟩, hdis, herr⟩ := h
  refine ⟨hp, ⟨hlen, ?_⟩, fun sc hsc => ?_, ⟨?_, fun hd => ?_, fun hd => ?_⟩, fun hd => ?_, herr⟩
  · rintro (hi | ⟨hi, hs⟩ | hi)
    · exact hempty (.inl hi)
    · exact hempty (.inr (.inl ⟨hi, Option.map_eq_none_iff.mp hs⟩))
    · exact hempty (.inr (.inr hi))
  · obtain ⟨sc', hsc', rfl⟩ := Option.map_eq_some_iff.mp hsc
    exact hscan sc' hsc'
  · simpa [Station.countDown] using hsilence
  · obtain ⟨h1, h2, h3, h4, h5, h6⟩ := hoff hd
    exact ⟨h1, h2, h3, h4, by simp [Station.countDown, h5], h6⟩
  · simpa [Station.countDown] using hprobe hd
  · have hd : st.link = .disabled := hd
    unfold Station.countDown
    rw [hdis hd]
    rfl

theorem State.Joint.countStations {s : State} (h : s.Joint) : s.countStations.Joint := by
  refine ⟨fun n => ?_, h.2.of_places (fun n => ?_) rfl rfl⟩
  · rw [State.station_countStations]
    exact (h.1 n).countDown
  · rw [State.station_countStations]
    exact ⟨rfl, rfl⟩

/-- The line alone changes, and with it the answer in flight. -/
theorem State.LineStep.joint {s t : State} (h : s.LineStep t) (hs : s.Joint) : t.Joint := by
  obtain ⟨hst, hstage, ⟨hq, hr, hown⟩, ⟨hsize, hhead⟩, hand⟩ := hs
  have hrq := h.rq
  refine ⟨fun n => h.station n ▸ hst n, hrq ▸ hstage, ⟨hrq ▸ hq, hrq ▸ hr, fun n => ?_⟩,
    ⟨fun e he => ?_, hrq ▸ hhead⟩, fun a ha hk => ?_⟩
  · rw [h.station n, hrq]; exact hown n
  · rw [h.station e.station]; exact hsize e (hrq ▸ he)
  · obtain ⟨b, hb, hbk, hstn, hpay⟩ := h.2 a ha hk
    rw [hrq, ← hstn, ← hpay]
    exact hand b hb hbk

theorem State.Runs.joint {s t : State} (hs : s.Joint) (h : s.Runs t) : t.Joint := by
  have stored {t : State} (h : s.StoreStep t) : t.Joint := hs.of_same h.station (by rw [h]) (by rw [h])
  cases h with
  | line h => exact h.joint hs
  | @handled u h ha k st p hk =>
    exact (State.handle_joint (h.joint hs) ha k st p).respond st State.handle_release_state
  | @reset u h a r => exact u.afterReset_joint a r
  | @released a n ha hk hn =>
    have hseen : s.byteSeen.Joint := (State.LineStep.byteSeen s).joint hs
    refine hseen.completeRelease rfl ?_
    obtain ⟨-, -, ⟨-, -, hown⟩, -, hand⟩ := hs
    obtain ⟨r, hr, hst, -⟩ := hand a ha hk
    rw [hst, stationOf_stationByte] at hn
    exact (hown n).1.mpr ⟨r, hr, Option.some.inj hn⟩
  | scanned => exact stored s.scanComplete_storeStep
  | row success => exact stored (s.rowComplete_storeStep success)
  | erased success => exact stored (s.eraseComplete_storeStep success)
  | control success => exact stored (s.controlComplete_storeStep success)
  | link n op => exact op.joint hs n

/-- Settles O58: each kind of change a step can make keeps the stations and the releases sound together. -/
theorem stepKeepsStationsAndReleasesSound : Obligations.StepKeepsStationsAndReleasesSound := by
  intro s t hst hrel h
  exact step_keeps (I := State.Joint) (fun s p k hs => hs.of_same (fun _ => rfl) rfl rfl)
    (fun s t hs h => h.joint hs) (fun s hs => hs.countStations) ⟨hst, hrel⟩ h

end Sys2Proof.Machine
end

section
/-! SUPPORT. The template store: what a sound store lets each store operation assume, and what its ends and its begins
keep (R143 to R164). -/

namespace Sys2Proof.Machine

/-! ### The operation in flight -/

theorem Store.rowNow_eq_some {st : Store} {job : RowJob} : st.rowNow = some job ↔ st.op = some (.rowProgram job) := by
  unfold Store.rowNow
  split <;> simp_all

theorem Store.eraseNow_eq_some {st : Store} {k : Nat} : st.eraseNow = some k ↔ st.op = some (.slotErase k) := by
  unfold Store.eraseNow
  split <;> simp_all

theorem Store.protectNow_eq_some {st : Store} {g : Fin 16} :
    st.protectNow = some g ↔ st.op = some (.controlUpdate g true) := by
  unfold Store.protectNow
  split <;> simp_all

theorem Store.rowInFlight_eq (st : Store) : st.rowInFlight = st.rowNow.isSome := by
  unfold Store.rowInFlight Store.rowNow
  split <;> simp_all

/-- No row program, slot erase or start-up scan is in flight, nor is a protect flag being turned on. -/
theorem Store.nothingNow_of_idle {st : Store} (h : st.op = none) :
    st.rowNow = none ∧ st.eraseNow = none ∧ st.protectNow = none := by
  simp [Store.rowNow, Store.eraseNow, Store.protectNow, h]

theorem Store.slot_fin (st : Store) (k : Fin 64) : st.slot k.1 = st.slots[k] := by
  simp [Store.slot]

theorem Store.slot_lt {st : Store} {k : Nat} {v : SlotState} (h : st.slot k = v) (hv : v ≠ .unknown) : k < 64 := by
  unfold Store.slot at h
  split at h
  · assumption
  · exact absurd h.symm hv

theorem Session.holds_iff (ss : Session) (k : Nat) : ss.holds k = true ↔ ss.first ≤ k ∧ k < ss.first + ss.count := by
  simp [Session.holds]

/-! ### What a sound store with a session is like (R155) -/

theorem Store.Sound.running {st : Store} (h : st.Sound) {ss : Session} (hs : st.session = some ss) :
    st.phase = .running := by
  obtain ⟨-, -, ⟨-, hstart, -⟩, -⟩ := h
  cases hp : st.phase with
  | running => rfl
  | starting =>
    obtain ⟨-, -, hno⟩ := hstart hp
    rw [hno] at hs
    cases hs

theorem Store.Sound.running_of_idle {st : Store} (h : st.Sound) (hop : st.op = none) : st.phase = .running := by
  obtain ⟨-, -, ⟨hiff, -⟩, -⟩ := h
  cases hp : st.phase with
  | running => rfl
  | starting =>
    have := hiff.mp hp
    rw [hop] at this
    cases this

/-- While a session exists no slot erase is in flight, and none waits. -/
theorem Store.Sound.no_erase {st : Store} (h : st.Sound) {ss : Session} (hs : st.session = some ss) :
    st.eraseNow = none ∧ st.erasesWaiting = [] := by
  obtain ⟨-, -, ⟨-, -, -, -, herase, -, hwait⟩, -⟩ := h
  have hnone : st.eraseNow = none := by
    cases he : st.eraseNow with
    | none => rfl
    | some k =>
      have := (herase k he).1
      rw [hs] at this
      cases this
  exact ⟨hnone, hwait hnone⟩

theorem Store.Sound.loading_iff {st : Store} (h : st.Sound) {ss : Session} (hs : st.session = some ss) (k : Fin 64) :
    st.slots[k] = .loading ↔ ss.holds k.1 = true := by
  obtain ⟨-, ⟨hload, -⟩, -⟩ := h
  rw [hload k, hs]
  simp

theorem Store.Sound.session_bounds {st : Store} (h : st.Sound) {ss : Session} (hs : st.session = some ss) :
    (1 ≤ ss.count ∧ ss.count ≤ 8) ∧ ss.first + ss.count ≤ 64 := by
  obtain ⟨-, ⟨-, hsess⟩, -⟩ := h
  obtain ⟨hcount, hfit, -⟩ := hsess ss hs
  exact ⟨hcount, hfit⟩

/-- R147: a slot of the session is in no protected group. -/
theorem Store.Sound.unprotected {st : Store} (h : st.Sound) {ss : Session} (hs : st.session = some ss) {k : Nat}
    (hk : ss.holds k = true) : st.slotProtected k = false := by
  have hlt : k < 64 := by
    have := (h.session_bounds hs).2
    have := (ss.holds_iff k).mp hk
    omega
  have hload := (h.loading_iff hs ⟨k, hlt⟩).mpr hk
  obtain ⟨-, -, -, ⟨hprot, -⟩, -⟩ := h
  exact hprot ⟨k, hlt⟩ hload

/-- The row in flight is one of the session's. -/
theorem Store.Sound.row_session {st : Store} (h : st.Sound) {job : RowJob} (hj : st.rowNow = some job) :
    ∃ ss, st.session = some ss ∧ job.slot ∈ ss.begun ∧ ss.holds job.slot = true ∧
      (∀ j ∈ st.rowsWaiting, ss.holds j.slot = true) ∧ ∀ j ∈ job :: st.rowsWaiting, j.bytes.length = 64 ∧ j.row < 32 := by
  obtain ⟨-, ⟨-, hsess⟩, ⟨-, -, -, hrow, -⟩, -⟩ := h
  obtain ⟨⟨ss, hs, hbegun, hwait⟩, hrows⟩ := hrow job hj
  obtain ⟨-, -, -, -, hheld, -⟩ := hsess ss hs
  exact ⟨ss, hs, hbegun, hheld _ hbegun, hwait, hrows⟩

/-! ### A session ends (R158 to R161) -/

/-- R155: the session of a sound store ends; the operation in flight, a row program or another, ends with it or is no row
program. -/
theorem Store.Sound.sessionEnded {st : Store} (h : st.Sound) {ss : Session} (hs : st.session = some ss)
    {op : Option StoreOp} (hop : op = none ∨ (op = st.op ∧ st.rowNow = none)) {sl : Vector SlotState 64}
    (hslot : ∀ k : Fin 64, sl[k] =
      if ss.holds k.1 = true then (if k.1 ∈ ss.begun then .dirty else .erased) else st.slots[k]) :
    ({ st with op := op, slots := sl, session := none, rowsWaiting := [] } : Store).Sound := by
  have hrun := h.running hs
  obtain ⟨hnoerase, hnowait⟩ := h.no_erase hs
  have hload := h.loading_iff hs
  obtain ⟨⟨hdir, hent, hslots⟩, -, ⟨hphase, -, hknown, -⟩, ⟨-, -, -, hprot⟩, ⟨hwf, hmem, herased, hblank⟩⟩ := h
  have hcases (k : Fin 64) : sl[k] = .dirty ∨
      (sl[k] = .erased ∧ ss.holds k.1 = true ∧ k.1 ∉ ss.begun) ∨
      (sl[k] = st.slots[k] ∧ st.slots[k] ≠ .loading) := by
    rw [hslot]
    split
    · rename_i hh
      split
      · exact .inl rfl
      · rename_i hb
        exact .inr (.inl ⟨rfl, hh, hb⟩)
    · rename_i hh
      exact .inr (.inr ⟨rfl, fun hc => hh ((hload k).mp hc)⟩)
  have hheld (k : Fin 64) (v : SlotState) (hv : v ≠ .dirty) (hv' : v ≠ .erased) (hv'' : v ≠ .loading) :
      sl[k] = v ↔ st.slots[k] = v := by
    rw [hslot]
    split
    · rename_i hh
      rw [(hload k).mpr hh]
      refine ⟨fun hc => ?_, fun hc => absurd hc.symm hv''⟩
      split at hc
      · exact absurd hc.symm hv
      · exact absurd hc.symm hv'
    · rfl
  have hop' : op ≠ some .startUpScan := by
    rcases hop with rfl | ⟨rfl, -⟩
    · exact nofun
    · intro hc
      rw [hphase.mpr hc] at hrun
      cases hrun
  have hnone : ({ st with op := op } : Store).rowNow = none ∧ ({ st with op := op } : Store).eraseNow = none := by
    rcases hop with rfl | ⟨rfl, hrow⟩
    · exact ⟨rfl, rfl⟩
    · exact ⟨hrow, hnoerase⟩
  refine ⟨⟨hdir, hent, fun k => ?_⟩, ⟨fun k => ⟨fun hc => ?_, fun ⟨x, hx, _⟩ => (nomatch hx)⟩, fun x hx => (nomatch hx)⟩,
    ⟨⟨fun hc => ?_, fun hc => absurd hc hop'⟩, fun hc => ?_, fun _ k => ?_, fun job hj => ?_, fun k hk => ?_,
      fun _ => rfl, fun _ => hnowait⟩,
    ⟨fun k hc => ?_, fun job hj => ?_, fun k hk => ?_, fun g hg k hk => ?_⟩,
    ⟨hwf, hmem, fun k hc => ?_, fun x hx => (nomatch hx)⟩⟩
  · rw [hheld k .head nofun nofun nofun, hheld k .tail nofun nofun nofun]
    exact hslots k
  · rcases hcases k with hd | ⟨he, -⟩ | ⟨heq, hno⟩
    · rw [hd] at hc; cases hc
    · rw [he] at hc; cases hc
    · exact absurd (heq.symm.trans hc) hno
  · have hc : st.phase = .starting := hc
    rw [hrun] at hc; cases hc
  · have hc : st.phase = .starting := hc
    rw [hrun] at hc; cases hc
  · rcases hcases k with hd | ⟨he, -⟩ | ⟨heq, -⟩
    · rw [hd]; decide
    · rw [he]; decide
    · rw [heq]; exact hknown hrun k
  · cases hnone.1.symm.trans hj
  · cases hnone.2.symm.trans hk
  · rcases hcases k with hd | ⟨he, -⟩ | ⟨heq, hno⟩
    · rw [hd] at hc; cases hc
    · rw [he] at hc; cases hc
    · exact absurd (heq.symm.trans hc) hno
  · cases hnone.1.symm.trans hj
  · cases hnone.2.symm.trans hk
  · intro hc
    rcases hcases k with hd | ⟨he, -⟩ | ⟨heq, hno⟩
    · rw [hd] at hc; cases hc
    · rw [he] at hc; cases hc
    · exact absurd (heq.symm.trans hc) hno
  · rcases hcases k with hd | ⟨-, hh, hb⟩ | ⟨heq, -⟩
    · rw [hd] at hc; cases hc
    · exact hblank ss hs k hh hb
    · exact herased k (heq.symm.trans hc)

theorem Store.Sound.endSession {st : Store} (h : st.Sound) {ss : Session} (hs : st.session = some ss)
    {op : Option StoreOp} (hop : op = none ∨ (op = st.op ∧ st.rowNow = none)) :
    ({ st with op := op }.endSession ss).Sound := by
  rw [Store.endSession_frame]
  exact h.sessionEnded hs hop (Store.endSession_slots _ ss)

/-! ### A row program begins (R158, R160) -/

/-- R158, R160: a row program of the session begins, on an idle store or behind another row program. -/
theorem Store.Sound.beginRow {st : Store} (h : st.Sound) {ss : Session} (hs : st.session = some ss)
    (hfail : ss.failed = false) {closing : Option Nat} {frameRows : Nat}
    (hopen : closing = none → ss.expected + frameRows ≤ ss.capacity)
    (hclosing : ∀ length ∈ closing, 16 ≤ length ∧ length ≤ 1984 * ss.count) {job : RowJob} {rest : List RowJob}
    (hheld : ∀ j ∈ job :: rest, ss.holds j.slot = true)
    (hrows : ∀ j ∈ job :: rest, j.bytes.length = 64 ∧ j.row < 32) :
    ({ st with session := some { ss with closing := closing, frameRows := frameRows } }.beginRow job rest).Sound := by
  have hrun := h.running hs
  obtain ⟨-, hnowait⟩ := h.no_erase hs
  have hload := h.loading_iff hs
  have hunprot := h.unprotected hs (hheld job List.mem_cons_self)
  obtain ⟨hdir, ⟨-, hsess⟩, ⟨-, -, hknown, -⟩, ⟨hprot, -, -, -⟩, ⟨hwf, hmem, herased, hblank⟩⟩ := h
  obtain ⟨hcount, hfit, hform, hexp, hbegun, hlook, -⟩ := hsess ss hs
  have hmem_begun (k : Nat) : k ∈ (if job.slot ∈ ss.begun then ss.begun else ss.begun ++ [job.slot]) ↔
      k ∈ ss.begun ∨ k = job.slot := by
    split
    · rename_i hin
      exact ⟨.inl, fun hc => hc.elim id fun hk => hk ▸ hin⟩
    · simp
  refine ⟨hdir, ⟨fun k => ?_, fun x hx => ?_⟩,
    ⟨⟨fun hc => ?_, fun hc => (nomatch hc)⟩, fun hc => ?_, hknown, fun j hj => ?_, fun k hk => (nomatch hk),
      fun hc => (nomatch hc), fun _ => hnowait⟩,
    ⟨hprot, fun j hj => ?_, fun k hk => (nomatch hk), fun g hg => (nomatch hg)⟩,
    ⟨hwf, hmem, herased, fun x hx k hk hno => ?_⟩⟩
  · refine (hload k).trans ⟨fun hk => ⟨_, rfl, hk⟩, fun ⟨x, hx, hk⟩ => ?_⟩
    cases hx
    exact hk
  · cases hx
    refine ⟨hcount, hfit, hform, hexp, fun k hk => ?_, hlook, fun _ => rfl, fun hc => ?_, fun hc _ => hopen hc, hclosing⟩
    · rcases (hmem_begun k).mp hk with hk | rfl
      · exact hbegun k hk
      · exact hheld job List.mem_cons_self
    · have hc : ss.failed = true := hc
      rw [hfail] at hc; cases hc
  · have hc : st.phase = .starting := hc
    rw [hrun] at hc; cases hc
  · have hc : st.phase = .starting := hc
    rw [hrun] at hc; cases hc
  · cases hj
    exact ⟨⟨_, rfl, (hmem_begun _).mpr (.inr rfl), fun j hj => hheld j (List.mem_cons_of_mem _ hj)⟩, hrows⟩
  · cases hj
    exact hunprot
  · cases hx
    exact hblank ss hs k hk fun hc => hno ((hmem_begun k.1).mpr (.inl hc))

/-! ### Row programs end (R158, R160) -/

/-- What a row program has written lies in a begun slot of the session. -/
theorem Store.Sound.rowPut {st : Store} (h : st.Sound) {job : RowJob} (hj : st.rowNow = some job) {bytes : List Byte}
    (hlen : bytes.length = 64) : ({ st with mem := putRow st.mem job bytes } : Store).Sound := by
  obtain ⟨ss, hs, hbegun, hheld, -, hrows⟩ := h.row_session hj
  have hload := h.loading_iff hs
  obtain ⟨-, hfit⟩ := h.session_bounds hs
  obtain ⟨hdir, hsess, hwork, hprot, ⟨hwf, hmem, herased, hblank⟩⟩ := h
  have hslot := (ss.holds_iff job.slot).mp hheld
  have hrow := (hrows job List.mem_cons_self).2
  have hin {c : Host.Cell} (hc : c ∈ putRow st.mem job bytes) :
      c ∈ st.mem ∨ (job.slot * 2048 ≤ c.1 ∧ c.1 < (job.slot + 1) * 2048) := by
    refine (Memory.mem_writeList hc).imp_right fun ⟨hlow, hhigh, _⟩ => ?_
    unfold rowAddress at hlow hhigh
    omega
  have hother (k : Nat) (hk : k ≠ job.slot) (he : slotErased st.mem k = true) :
      slotErased (putRow st.mem job bytes) k = true := by
    unfold slotErased inSlot at he ⊢
    rw [List.all_eq_true] at he ⊢
    intro c hc
    rcases hin hc with hc | hc
    · exact he c hc
    · have : ¬ (k * 2048 ≤ c.1 ∧ c.1 < (k + 1) * 2048) := by omega
      simp [this]
  refine ⟨hdir, hsess, hwork, hprot, ⟨putRow_wf _ _ _ hwf, fun c hc => ?_, fun k hk => ?_, fun x hx k hk hno => ?_⟩⟩
  · rcases hin hc with hc | hc
    · exact hmem c hc
    · omega
  · refine hother k.1 (fun hc => ?_) (herased k hk)
    have := (hload k).mpr (hc ▸ hheld)
    rw [hk] at this
    cases this
  · have hx : x ∈ st.session := hx
    rw [hs] at hx
    cases hx
    exact hother k.1 (fun hc => hno (hc ▸ hbegun)) (hblank ss hs k hk hno)

/-- R158: the work of a frame is over and its session goes on, with a new expected row or FAILED. -/
theorem Store.Sound.idle {st : Store} (h : st.Sound) {ss : Session} (hs : st.session = some ss)
    (hab : ss.abandoning = false) (hcl : ss.closing = none) {expected : Nat} {failed : Bool}
    (hexp : expected ≤ ss.capacity) :
    ({ st.idle with session := some { ss with expected := expected, failed := failed } } : Store).Sound := by
  have hrun := h.running hs
  obtain ⟨-, hnowait⟩ := h.no_erase hs
  have hload := h.loading_iff hs
  obtain ⟨hdir, ⟨-, hsess⟩, ⟨-, -, hknown, -⟩, ⟨hprot, -, -, -⟩, ⟨hwf, hmem, herased, hblank⟩⟩ := h
  obtain ⟨hcount, hfit, hform, -, hbegun, hlook, -⟩ := hsess ss hs
  refine ⟨hdir, ⟨fun k => ?_, fun x hx => ?_⟩,
    ⟨⟨fun hc => ?_, fun hc => (nomatch hc)⟩, fun hc => ?_, hknown, fun j hj => (nomatch hj), fun k hk => (nomatch hk),
      fun _ => rfl, fun _ => hnowait⟩,
    ⟨hprot, fun j hj => (nomatch hj), fun k hk => (nomatch hk), fun g hg => (nomatch hg)⟩,
    ⟨hwf, hmem, herased, fun x hx k hk hno => ?_⟩⟩
  · refine (hload k).trans ⟨fun hk => ⟨_, rfl, hk⟩, fun ⟨x, hx, hk⟩ => ?_⟩
    cases hx
    exact hk
  · cases hx
    refine ⟨hcount, hfit, hform, hexp, hbegun, hlook, fun hc => ?_, fun _ => rfl, fun _ hc => (nomatch hc), fun l hl => ?_⟩
    · rcases hc with hc | hc
      · have hc : ss.abandoning = true := hc
        rw [hab] at hc; cases hc
      · have hc : ss.closing.isSome = true := hc
        rw [hcl] at hc; cases hc
    · have hl : l ∈ ss.closing := hl
      rw [hcl] at hl; cases hl
  · have hc : st.phase = .starting := hc
    rw [hrun] at hc; cases hc
  · have hc : st.phase = .starting := hc
    rw [hrun] at hc; cases hc
  · cases hx
    exact hblank ss hs k hk hno

/-- R146: a template that shares no slot and no form number with those listed joins the directory in its order. -/
theorem insertEntry_ordered {e : DirEntry} {l : List DirEntry}
    (hl : l.Pairwise fun d e => d.first + d.count ≤ e.first ∧ d.form ≠ e.form)
    (he : ∀ d ∈ l, (d.first + d.count ≤ e.first ∨ e.first + e.count ≤ d.first) ∧ d.form ≠ e.form) (hc : 1 ≤ e.count)
    (hcl : ∀ d ∈ l, 1 ≤ d.count) :
    (insertEntry e l).Pairwise fun d e => d.first + d.count ≤ e.first ∧ d.form ≠ e.form := by
  induction l with
  | nil => exact List.pairwise_singleton _ _
  | cons d l ih =>
    obtain ⟨hd, hl⟩ := List.pairwise_cons.mp hl
    obtain ⟨⟨hplace, hform⟩, he⟩ := List.forall_mem_cons.mp he
    obtain ⟨hdc, hcl⟩ := List.forall_mem_cons.mp hcl
    unfold insertEntry
    split
    · have hbefore : e.first + e.count ≤ d.first := by omega
      refine List.pairwise_cons.mpr ⟨fun x hx => ?_, List.pairwise_cons.mpr ⟨hd, hl⟩⟩
      rcases List.mem_cons.mp hx with rfl | hx
      · exact ⟨hbefore, hform.symm⟩
      · have := (hd x hx).1
        exact ⟨by omega, (he x hx).2.symm⟩
    · refine List.pairwise_cons.mpr ⟨fun x hx => ?_, ih hl he hcl⟩
      rcases (mem_insertEntry x e l).mp hx with rfl | hx
      · exact ⟨by omega, hform⟩
      · exact hd x hx

theorem Store.listTemplate_frame (st : Store) (ss : Session) (length : Nat) :
    st.listTemplate ss length =
      { st with
          slots := (st.listTemplate ss length).slots, session := none, op := none, rowsWaiting := []
          directory := insertEntry { form := ss.form, first := ss.first, count := ss.count, length := length }
            st.directory } := by
  simp only [Store.listTemplate, Store.setSlots]

theorem Store.listTemplate_slots (st : Store) (ss : Session) (length : Nat) (k : Fin 64) :
    (st.listTemplate ss length).slots[k] =
      if k.1 = ss.first then .head else if ss.holds k.1 = true then .tail else st.slots[k] := by
  have h : (st.listTemplate ss length).slots =
      ((st.setSlots ss.holds .tail).setSlots (fun k => decide (k = ss.first)) .head).slots := rfl
  rw [h, Store.setSlots_get, Store.setSlots_get]
  simp

/-- A listed template has its slots in the table. -/
theorem Store.DirectorySound.slot_of_mem {st : Store} (h : st.DirectorySound) {e : DirEntry} (he : e ∈ st.directory)
    {k : Fin 64} (hk : e.first ≤ k.1 ∧ k.1 < e.first + e.count) : st.slots[k] = .head ∨ st.slots[k] = .tail := by
  obtain ⟨-, -, hslots⟩ := h
  rcases Nat.eq_or_lt_of_le hk.1 with heq | hlt
  · exact .inl ((hslots k).1.mpr ⟨e, he, heq⟩)
  · exact .inr ((hslots k).2.mpr ⟨e, he, hlt, hk.2⟩)

/-- R160: the header rows are complete and the template is listed. -/
theorem Store.Sound.templateListed {st : Store} (h : st.Sound) {ss : Session} (hs : st.session = some ss) {length : Nat}
    (hcl : ss.closing = some length) {sl : Vector SlotState 64}
    (hslot : ∀ k : Fin 64, sl[k] =
      if k.1 = ss.first then .head else if ss.holds k.1 = true then .tail else st.slots[k]) :
    ({ st with
        slots := sl, session := none, op := none, rowsWaiting := []
        directory := insertEntry { form := ss.form, first := ss.first, count := ss.count, length := length }
          st.directory } : Store).Sound := by
  have hrun := h.running hs
  obtain ⟨-, hnowait⟩ := h.no_erase hs
  have hload := h.loading_iff hs
  obtain ⟨hdirs, ⟨-, hsess⟩, ⟨-, -, hknown, -⟩, -, ⟨hwf, hmem, herased, -⟩⟩ := h
  obtain ⟨hdir, hent, hslots⟩ := id hdirs
  obtain ⟨hcount, hfit, hform, -, -, hlook, -, -, -, hlen⟩ := hsess ss hs
  have hfirst : ss.holds ss.first = true := (ss.holds_iff _).mpr (by omega)
  have hfree (d : DirEntry) (hd : d ∈ st.directory) :
      (d.first + d.count ≤ ss.first ∨ ss.first + ss.count ≤ d.first) ∧ d.form ≠ ss.form := by
    obtain ⟨hdc, hdfit, -⟩ := hent d hd
    refine ⟨Classical.byContradiction fun hc => ?_, fun hc => ?_⟩
    · have hk : max d.first ss.first < 64 := by omega
      have hslot := hdirs.slot_of_mem hd (k := ⟨max d.first ss.first, hk⟩) (by dsimp only; omega)
      rw [(hload ⟨_, hk⟩).mpr ((ss.holds_iff _).mpr (by dsimp only; omega))] at hslot
      rcases hslot with hslot | hslot <;> cases hslot
    · have := List.find?_eq_none.mp hlook d hd
      rw [hc] at this
      simp at this
  have hcases (k : Fin 64) : ((sl[k] = .head ∧ k.1 = ss.first) ∨
      (sl[k] = .tail ∧ ss.first < k.1 ∧ k.1 < ss.first + ss.count)) ∧ st.slots[k] = .loading ∨
      (sl[k] = st.slots[k] ∧ st.slots[k] ≠ .loading ∧ ss.holds k.1 = false) := by
    rw [hslot]
    split
    · rename_i hk
      exact .inl ⟨.inl ⟨rfl, hk⟩, (hload k).mpr (hk ▸ hfirst)⟩
    · rename_i hk
      split
      · rename_i hh
        have := (ss.holds_iff _).mp hh
        exact .inl ⟨.inr ⟨rfl, by omega, by omega⟩, (hload k).mpr hh⟩
      · rename_i hh
        exact .inr ⟨rfl, fun hc => hh ((hload k).mp hc), by simpa using hh⟩
  refine ⟨⟨insertEntry_ordered hdir hfree hcount.1 fun d hd => (hent d hd).1.1, fun e he => ?_, fun k => ?_⟩,
    ⟨fun k => ⟨fun hc => ?_, fun ⟨x, hx, _⟩ => (nomatch hx)⟩, fun x hx => (nomatch hx)⟩,
    ⟨⟨fun hc => ?_, fun hc => (nomatch hc)⟩, fun hc => ?_, fun _ k => ?_, fun j hj => (nomatch hj),
      fun k hk => (nomatch hk), fun _ => rfl, fun _ => hnowait⟩,
    ⟨fun k hc => ?_, fun j hj => (nomatch hj), fun k hk => (nomatch hk), fun g hg => (nomatch hg)⟩,
    ⟨hwf, hmem, fun k hk => ?_, fun x hx => (nomatch hx)⟩⟩
  · rcases (mem_insertEntry e _ _).mp he with rfl | he
    · exact ⟨hcount, hfit, hform, hlen length hcl⟩
    · exact hent e he
  · have hmemdir (P : DirEntry → Prop) :
        (∃ e ∈ insertEntry { form := ss.form, first := ss.first, count := ss.count, length := length } st.directory,
          P e) ↔
        P { form := ss.form, first := ss.first, count := ss.count, length := length } ∨ ∃ e ∈ st.directory, P e := by
      constructor
      · rintro ⟨e, he, hp⟩
        rcases (mem_insertEntry e _ _).mp he with rfl | he
        · exact .inl hp
        · exact .inr ⟨e, he, hp⟩
      · rintro (hp | ⟨e, he, hp⟩)
        · exact ⟨_, (mem_insertEntry _ _ _).mpr (.inl rfl), hp⟩
        · exact ⟨e, (mem_insertEntry _ _ _).mpr (.inr he), hp⟩
    rw [hmemdir, hmemdir]
    have hk64 := (hslots k)
    rcases hcases k with ⟨⟨hv, hk⟩ | ⟨hv, hk⟩, hl⟩ | ⟨hv, -, hno⟩
    · rw [hv]
      refine ⟨⟨fun _ => .inl hk.symm, fun _ => rfl⟩, ⟨fun hc => (nomatch hc), ?_⟩⟩
      rintro (hp | hp)
      · dsimp only at hp; omega
      · have := hk64.2.mpr hp
        rw [hl] at this; cases this
    · rw [hv]
      refine ⟨⟨fun hc => (nomatch hc), ?_⟩, ⟨fun _ => .inl hk, fun _ => rfl⟩⟩
      rintro (hp | hp)
      · dsimp only at hp; omega
      · have := hk64.1.mpr hp
        rw [hl] at this; cases this
    · rw [hv]
      have hout : ¬ (ss.first ≤ k.1 ∧ k.1 < ss.first + ss.count) := fun hc => by
        rw [(ss.holds_iff _).mpr hc] at hno; cases hno
      refine ⟨hk64.1.trans ⟨.inr, ?_⟩, hk64.2.trans ⟨.inr, ?_⟩⟩
      · rintro (hp | hp)
        · dsimp only at hp; omega
        · exact hp
      · rintro (hp | hp)
        · dsimp only at hp; omega
        · exact hp
  · rcases hcases k with ⟨⟨hv, -⟩ | ⟨hv, -⟩, -⟩ | ⟨hv, hno, -⟩
    · rw [hv] at hc; cases hc
    · rw [hv] at hc; cases hc
    · exact absurd (hv.symm.trans hc) hno
  · have hc : st.phase = .starting := hc
    rw [hrun] at hc; cases hc
  · have hc : st.phase = .starting := hc
    rw [hrun] at hc; cases hc
  · rcases hcases k with ⟨⟨hv, -⟩ | ⟨hv, -⟩, -⟩ | ⟨hv, -, -⟩
    · rw [hv]; decide
    · rw [hv]; decide
    · rw [hv]; exact hknown hrun k
  · rcases hcases k with ⟨⟨hv, -⟩ | ⟨hv, -⟩, -⟩ | ⟨hv, hno, -⟩
    · rw [hv] at hc; cases hc
    · rw [hv] at hc; cases hc
    · exact absurd (hv.symm.trans hc) hno
  · rcases hcases k with ⟨⟨hv, -⟩ | ⟨hv, -⟩, -⟩ | ⟨hv, -, -⟩
    · rw [hv] at hk; cases hk
    · rw [hv] at hk; cases hk
    · exact herased k (hv.symm.trans hk)

theorem Store.Sound.listTemplate {st : Store} (h : st.Sound) {ss : Session} (hs : st.session = some ss) {length : Nat}
    (hcl : ss.closing = some length) : (st.listTemplate ss length).Sound := by
  rw [Store.listTemplate_frame]
  exact h.templateListed hs hcl (st.listTemplate_slots ss length)

end Sys2Proof.Machine
end

section
/-! SUPPORT. The template store: opening, erasing, protecting, scanning and starting keep it sound, and so does every step
(O59). -/

namespace Sys2Proof.Machine

/-! ### The directory -/

theorem DirEntry.covers_iff (e : DirEntry) (k : Nat) : e.covers k = true ↔ e.first ≤ k ∧ k < e.first + e.count := by
  simp [DirEntry.covers]

/-- Listed templates share no slot. -/
theorem directory_disjoint {l : List DirEntry}
    (hl : l.Pairwise fun d e => d.first + d.count ≤ e.first ∧ d.form ≠ e.form) {d e : DirEntry} (hd : d ∈ l) (he : e ∈ l)
    (hne : d ≠ e) : d.first + d.count ≤ e.first ∨ e.first + e.count ≤ d.first := by
  have hsymm : l.Pairwise fun d e => d.first + d.count ≤ e.first ∨ e.first + e.count ≤ d.first :=
    hl.imp fun h => .inl h.1
  have : Std.Symm fun d e : DirEntry => d.first + d.count ≤ e.first ∨ e.first + e.count ≤ d.first :=
    ⟨fun _ _ => Or.symm⟩
  exact hsymm.forall hd he hne

/-- A slot lies in at most one listed template. -/
theorem directory_unique {l : List DirEntry}
    (hl : l.Pairwise fun d e => d.first + d.count ≤ e.first ∧ d.form ≠ e.form) {d e : DirEntry} (hd : d ∈ l) (he : e ∈ l)
    {k : Nat} (hdk : d.covers k = true) (hek : e.covers k = true) : d = e := by
  refine Classical.byContradiction fun hne => ?_
  have := directory_disjoint hl hd he hne
  rw [DirEntry.covers_iff] at hdk hek
  omega

/-! ### LOAD OPEN (R156) -/

/-- R156: a session opened on ERASED, unprotected slots, its form not listed. -/
theorem Store.Sound.sessionOpened {st : Store} (h : st.Sound) (hop : st.op = none) (hno : st.session = none)
    {form : Byte} {first count : Nat} (hform : 1 ≤ form.toNat ∧ form.toNat ≤ 250) (hcount : 1 ≤ count ∧ count ≤ 8)
    (hfit : first + count ≤ 64) (hlook : st.lookup form = none)
    (hfree : ∀ k : Fin 64, first ≤ k.1 ∧ k.1 < first + count → st.slots[k] = .erased ∧ st.slotProtected k.1 = false)
    {sl : Vector SlotState 64}
    (hslot : ∀ k : Fin 64, sl[k] = if first ≤ k.1 ∧ k.1 < first + count then .loading else st.slots[k]) :
    ({ st with
        slots := sl
        session := some
          { form := form, first := first, count := count, expected := 0, begun := [], failed := false, closing := none
            abandoning := false, frameRows := 0 } } : Store).Sound := by
  have hrun := h.running_of_idle hop
  obtain ⟨hrow, herase, hprotect⟩ := st.nothingNow_of_idle hop
  obtain ⟨⟨hdir, hent, hslots⟩, ⟨hload, -⟩, ⟨hphase, -, hknown, -, -, hrows, hwait⟩, ⟨hprot, -⟩,
    ⟨hwf, hmem, herased, -⟩⟩ := h
  have hnoload (k : Fin 64) : st.slots[k] ≠ .loading := fun hc => by
    obtain ⟨x, hx, -⟩ := (hload k).mp hc
    rw [hno] at hx
    cases hx
  have hflight : st.rowInFlight = false := by rw [Store.rowInFlight_eq, hrow]; rfl
  have hcases (k : Fin 64) : (sl[k] = .loading ∧ (first ≤ k.1 ∧ k.1 < first + count) ∧ st.slots[k] = .erased ∧
      st.slotProtected k.1 = false) ∨ (sl[k] = st.slots[k] ∧ ¬ (first ≤ k.1 ∧ k.1 < first + count)) := by
    rw [hslot]
    split
    · rename_i hk
      exact .inl ⟨rfl, hk, hfree k hk⟩
    · rename_i hk
      exact .inr ⟨rfl, hk⟩
  refine ⟨⟨hdir, hent, fun k => ?_⟩, ⟨fun k => ?_, fun x hx => ?_⟩,
    ⟨hphase, fun hc => ?_, fun _ k => ?_, fun j hj => ?_, fun k hk => ?_, fun _ => hrows hrow, fun _ => hwait herase⟩,
    ⟨fun k hk => ?_, fun j hj => ?_, fun k hk => ?_, fun g hg => ?_⟩,
    ⟨hwf, hmem, fun k hk => ?_, fun x hx k hk _ => ?_⟩⟩
  · rcases hcases k with ⟨hv, -, he, -⟩ | ⟨hv, -⟩
    · rw [hv, ← (hslots k).1, ← (hslots k).2, he]
      decide
    · rw [hv]
      exact hslots k
  · rcases hcases k with ⟨hv, hk, -⟩ | ⟨hv, hk⟩
    · rw [hv]
      exact ⟨fun _ => ⟨_, rfl, (Session.holds_iff _ _).mpr hk⟩, fun _ => rfl⟩
    · rw [hv]
      refine ⟨fun hc => absurd hc (hnoload k), fun ⟨x, hx, hh⟩ => ?_⟩
      cases hx
      exact absurd ((Session.holds_iff _ _).mp hh) hk
  · cases hx
    refine ⟨hcount, hfit, hform, Nat.zero_le _, fun k hk => (nomatch hk), hlook, fun hc => ?_, fun hc => (nomatch hc),
      fun _ hc => ?_, fun l hl => (nomatch hl)⟩
    · rcases hc with hc | hc <;> cases hc
    · cases hflight.symm.trans hc
  · have hc : st.phase = .starting := hc
    rw [hrun] at hc; cases hc
  · rcases hcases k with ⟨hv, -⟩ | ⟨hv, -⟩
    · rw [hv]; decide
    · rw [hv]; exact hknown hrun k
  · cases hrow.symm.trans hj
  · cases herase.symm.trans hk
  · rcases hcases k with ⟨-, -, -, hp⟩ | ⟨hv, -⟩
    · exact hp
    · exact absurd (hv.symm.trans hk) (hnoload k)
  · cases hrow.symm.trans hj
  · cases herase.symm.trans hk
  · cases hprotect.symm.trans hg
  · rcases hcases k with ⟨hv, -⟩ | ⟨hv, -⟩
    · rw [hv] at hk; cases hk
    · exact herased k (hv.symm.trans hk)
  · cases hx
    exact herased k (hfree k ((Session.holds_iff _ _).mp hk)).1

theorem Store.openSession_frame (st : Store) (form : Byte) (first count : Nat) :
    st.openSession form first count =
      { st with
          slots := (st.setSlots (fun k => decide (first ≤ k ∧ k < first + count)) .loading).slots
          session := some
            { form := form, first := first, count := count, expected := 0, begun := [], failed := false
              closing := none, abandoning := false, frameRows := 0 } } := by
  simp only [Store.openSession, Store.setSlots]

/-- R156 checks 5 to 7 passed. -/
theorem Store.openFault_none {st : Store} {form : Byte} {first count : Nat}
    (h : st.openFault form first count = none) :
    st.lookup form = none ∧ ∀ k, first ≤ k → k < first + count → st.slotProtected k = false ∧ st.slot k = .erased := by
  unfold Store.openFault at h
  split at h
  · cases h
  · rename_i hlook
    split at h
    · cases h
    · rename_i hprot
      split at h
      · cases h
      · rename_i her
        refine ⟨hlook, fun k hlow hhigh => ?_⟩
        have hk : k ∈ slotRange first count := (mem_slotRange _ _ _).mpr ⟨hlow, hhigh⟩
        have h1 := List.find?_eq_none.mp hprot k hk
        have h2 := List.find?_eq_none.mp her k hk
        exact ⟨by simpa using h1, by simpa using h2⟩

theorem Store.Sound.openSession {st : Store} (h : st.Sound) (hop : st.op = none) (hno : st.session = none)
    {form : Byte} {first count : Nat} (hform : 1 ≤ form.toNat ∧ form.toNat ≤ 250) (hcount : 1 ≤ count ∧ count ≤ 8)
    (hfit : first + count ≤ 64) (hfault : st.openFault form first count = none) :
    (st.openSession form first count).Sound := by
  obtain ⟨hlook, hfree⟩ := Store.openFault_none hfault
  rw [Store.openSession_frame]
  refine h.sessionOpened hop hno hform hcount hfit hlook (fun k hk => ?_) fun k => ?_
  · obtain ⟨hp, he⟩ := hfree k.1 hk.1 hk.2
    exact ⟨(st.slot_fin k).symm.trans he, hp⟩
  · rw [Store.setSlots_get]
    simp

/-! ### ERASE SLOTS (R162, R163) -/

/-- R162: the slots of a listed template are all skipped or none is. -/
theorem Store.skips_of_covers {st : Store} (hdir : st.DirectorySound) {e : DirEntry} (he : e ∈ st.directory) {k : Nat}
    (hk : e.covers k = true) : st.skips k = st.templateProtected e := by
  obtain ⟨hpair, -, -⟩ := hdir
  unfold Store.skips
  by_cases hp : st.templateProtected e = true
  · have : (st.directory.any fun e => e.covers k && st.templateProtected e) = true :=
      List.any_eq_true.mpr ⟨e, he, by rw [hk, hp]; rfl⟩
    rw [this, hp, Bool.or_true]
  · have hany : (st.directory.any fun e => e.covers k && st.templateProtected e) = false := by
      rw [List.any_eq_false]
      intro d hd hc
      rw [Bool.and_eq_true] at hc
      rw [directory_unique hpair hd he hc.1 hk] at hc
      exact hp hc.2
    have hslot : st.slotProtected k = false := by
      rw [Bool.eq_false_iff]
      intro hc
      refine hp (List.any_eq_true.mpr ⟨k, (mem_slotRange _ _ _).mpr ((e.covers_iff k).mp hk), hc⟩)
    rw [hany, hslot, Bool.eq_false_iff.mpr hp]
    rfl

/-- R162 check 5: a template that does not straddle a range lies in it or outside it. -/
theorem DirEntry.inside_iff_of_not_straddles {e : DirEntry} {first last : Nat} (h : e.straddles first last = false)
    {j k : Nat} (hj : e.covers j = true) (hk : e.covers k = true) :
    (first ≤ j ∧ j ≤ last) ↔ (first ≤ k ∧ k ≤ last) := by
  have hmem {i : Nat} (hi : e.covers i = true) : i ∈ slotRange e.first e.count :=
    (mem_slotRange _ _ _).mpr ((e.covers_iff i).mp hi)
  have hone {i i' : Nat} (hi : e.covers i = true) (hi' : e.covers i' = true) (hin : first ≤ i ∧ i ≤ last) :
      first ≤ i' ∧ i' ≤ last := by
    refine Classical.byContradiction fun hout => ?_
    rw [DirEntry.straddles, Bool.and_eq_false_iff] at h
    rcases h with h | h
    · exact List.any_eq_false.mp h i (hmem hi) (decide_eq_true hin)
    · exact List.any_eq_false.mp h i' (hmem hi') (by simp [hout])
  exact ⟨hone hj hk, hone hk hj⟩

/-- The slots of a range that are to be erased. -/
def Store.eraseList (st : Store) (first last : Nat) : List Nat := (slotRange first (last + 1 - first)).filter st.toErase

theorem Store.mem_eraseList {st : Store} {first last k : Nat} :
    k ∈ st.eraseList first last ↔ (first ≤ k ∧ k ≤ last) ∧ st.skips k = false ∧ st.slot k ≠ .erased := by
  unfold Store.eraseList Store.toErase
  rw [List.mem_filter, mem_slotRange]
  simp
  omega

/-- R162: of a listed template that does not straddle the range, all slots are to be erased or none is. -/
theorem Store.mem_eraseList_of_covers {st : Store} (hdir : st.DirectorySound) {e : DirEntry} (he : e ∈ st.directory)
    {first last : Nat} (hst : e.straddles first last = false) {j k : Nat} (hj : e.covers j = true)
    (hk : e.covers k = true) : j ∈ st.eraseList first last ↔ k ∈ st.eraseList first last := by
  have hlisted {i : Nat} (hi : e.covers i = true) : st.slot i ≠ .erased := by
    have hcov := (e.covers_iff i).mp hi
    obtain ⟨-, hent, -⟩ := id hdir
    have hlt : i < 64 := by
      have := (hent e he).2.1
      omega
    rw [st.slot_fin ⟨i, hlt⟩]
    rcases hdir.slot_of_mem he (k := ⟨i, hlt⟩) hcov with hv | hv <;> rw [hv] <;> decide
  rw [Store.mem_eraseList, Store.mem_eraseList, Store.skips_of_covers hdir he hj, Store.skips_of_covers hdir he hk,
    DirEntry.inside_iff_of_not_straddles hst hj hk]
  exact and_congr_right fun _ => and_congr_right fun _ => ⟨fun _ => hlisted hk, fun _ => hlisted hj⟩

/-- R162: the range of an accepted ERASE SLOTS, its first erase begun. -/
theorem Store.Sound.condemned {st : Store} (h : st.Sound) (hop : st.op = none) (hno : st.session = none)
    {first last slot : Nat} {rest : List Nat} (hlast : last ≤ 63)
    (hst : ∀ e ∈ st.directory, e.straddles first last = false) (hlist : st.eraseList first last = slot :: rest)
    {sl : Vector SlotState 64}
    (hslot : ∀ k : Fin 64, sl[k] = if k.1 ∈ st.eraseList first last then .dirty else st.slots[k]) :
    ({ st with
        slots := sl, directory := st.directory.filter fun e => !(st.eraseList first last).contains e.first
        op := some (.slotErase slot), erasesWaiting := rest } : Store).Sound := by
  have hrun := h.running_of_idle hop
  obtain ⟨hrow, -, -⟩ := st.nothingNow_of_idle hop
  obtain ⟨hdirs, ⟨hload, -⟩, ⟨-, -, hknown, -, -, hrows, -⟩, -, ⟨hwf, hmem, herased, -⟩⟩ := h
  obtain ⟨hdir, hent, hslots⟩ := id hdirs
  have hnoload (k : Fin 64) : st.slots[k] ≠ .loading := fun hc => by
    obtain ⟨x, hx, -⟩ := (hload k).mp hc
    rw [hno] at hx
    cases hx
  have hcases (k : Fin 64) : (sl[k] = .dirty ∧ k.1 ∈ st.eraseList first last) ∨
      (sl[k] = st.slots[k] ∧ k.1 ∉ st.eraseList first last) := by
    rw [hslot]
    split
    · rename_i hk
      exact .inl ⟨rfl, hk⟩
    · rename_i hk
      exact .inr ⟨rfl, hk⟩
  have hkept (e : DirEntry) : e ∈ (st.directory.filter fun e => !(st.eraseList first last).contains e.first) ↔
      e ∈ st.directory ∧ e.first ∉ st.eraseList first last := by
    rw [List.mem_filter]
    simp
  have huniform {e : DirEntry} (he : e ∈ st.directory) {k : Nat} (hk : e.first ≤ k ∧ k < e.first + e.count) :
      e.first ∈ st.eraseList first last ↔ k ∈ st.eraseList first last :=
    Store.mem_eraseList_of_covers hdirs he (hst e he)
      ((e.covers_iff _).mpr ⟨Nat.le_refl _, by omega⟩) ((e.covers_iff _).mpr hk)
  have hascending : (slot :: rest).Pairwise (· < ·) := hlist ▸ (slotRange_ascending _ _).filter _
  have hdirty (j : Nat) (hj : j ∈ slot :: rest) :
      (∃ hlt : j < 64, sl[(⟨j, hlt⟩ : Fin 64)] = .dirty) ∧ st.slotProtected j = false := by
    rw [← hlist] at hj
    obtain ⟨hin, hskip, -⟩ := Store.mem_eraseList.mp hj
    refine ⟨⟨by omega, ?_⟩, ?_⟩
    · rw [hslot]
      exact if_pos hj
    · exact (Bool.or_eq_false_iff.mp hskip).1
  refine ⟨⟨hdir.filter _, fun e he => hent e ((hkept e).mp he).1, fun k => ?_⟩,
    ⟨fun k => ⟨fun hc => ?_, fun ⟨x, hx, _⟩ => ?_⟩, fun x hx => ?_⟩,
    ⟨⟨fun hc => ?_, fun hc => (nomatch hc)⟩, fun hc => ?_, fun _ k => ?_, fun j hj => (nomatch hj), fun k hk => ?_,
      fun _ => hrows hrow, fun hc => (nomatch hc)⟩,
    ⟨fun k hk => ?_, fun j hj => (nomatch hj), fun k hk j hj => ?_, fun g hg => (nomatch hg)⟩,
    ⟨hwf, hmem, fun k hk => ?_, fun x hx => ?_⟩⟩
  · rcases hcases k with ⟨hv, hin⟩ | ⟨hv, hout⟩
    · rw [hv]
      refine ⟨⟨fun hc => (nomatch hc), fun ⟨e, he, hk⟩ => ?_⟩, ⟨fun hc => (nomatch hc), fun ⟨e, he, hk⟩ => ?_⟩⟩
      · exact absurd (hk ▸ hin) ((hkept e).mp he).2
      · obtain ⟨he, hfirst⟩ := (hkept e).mp he
        exact absurd ((huniform he ⟨hk.1.le, hk.2⟩).mpr hin) hfirst
    · rw [hv]
      refine ⟨(hslots k).1.trans ⟨fun ⟨e, he, hk⟩ => ⟨e, (hkept e).mpr ⟨he, hk ▸ hout⟩, hk⟩,
          fun ⟨e, he, hk⟩ => ⟨e, ((hkept e).mp he).1, hk⟩⟩,
        (hslots k).2.trans ⟨fun ⟨e, he, hk⟩ => ⟨e, (hkept e).mpr ⟨he, ?_⟩, hk⟩,
          fun ⟨e, he, hk⟩ => ⟨e, ((hkept e).mp he).1, hk⟩⟩⟩
      exact fun hc => hout ((huniform he ⟨hk.1.le, hk.2⟩).mp hc)
  · rcases hcases k with ⟨hv, -⟩ | ⟨hv, -⟩
    · rw [hv] at hc; cases hc
    · exact absurd (hv.symm.trans hc) (hnoload k)
  · cases hno.symm.trans hx
  · cases hno.symm.trans hx
  · cases hrun.symm.trans hc
  · cases hrun.symm.trans hc
  · rcases hcases k with ⟨hv, -⟩ | ⟨hv, -⟩
    · rw [hv]; decide
    · rw [hv]; exact hknown hrun k
  · cases hk
    refine ⟨hno, hascending, fun j hj => ?_⟩
    obtain ⟨⟨hlt, hv⟩, -⟩ := hdirty j hj
    exact (Store.slot_fin _ ⟨j, hlt⟩).trans hv
  · rcases hcases k with ⟨hv, -⟩ | ⟨hv, -⟩
    · rw [hv] at hk; cases hk
    · exact absurd (hv.symm.trans hk) (hnoload k)
  · cases hk
    exact (hdirty j hj).2
  · rcases hcases k with ⟨hv, -⟩ | ⟨hv, -⟩
    · rw [hv] at hk; cases hk
    · exact herased k (hv.symm.trans hk)
  · cases hno.symm.trans hx

theorem Store.condemn_frame (st : Store) (slots : List Nat) (slot : Nat) (rest : List Nat) :
    (st.condemn slots).beginErase slot rest =
      { st with
          slots := (st.setSlots (fun k => slots.contains k) .dirty).slots
          directory := st.directory.filter fun e => !slots.contains e.first
          op := some (.slotErase slot), erasesWaiting := rest } := by
  simp only [Store.condemn, Store.beginErase, Store.setSlots]

theorem Store.Sound.condemn {st : Store} (h : st.Sound) (hop : st.op = none) (hno : st.session = none)
    {first last slot : Nat} {rest : List Nat} (hlast : last ≤ 63)
    (hst : ∀ e ∈ st.directory, e.straddles first last = false) (hlist : st.eraseList first last = slot :: rest) :
    ((st.condemn (st.eraseList first last)).beginErase slot rest).Sound := by
  rw [Store.condemn_frame]
  refine h.condemned hop hno hlast hst hlist fun k => ?_
  rw [Store.setSlots_get]
  simp

/-- R163: what is begun after a slot erase: the next erase, or nothing. -/
def Store.eraseNext (st : Store) : Store :=
  match st.erasesWaiting with
  | next :: rest => st.beginErase next rest
  | [] => { st with op := none }

/-- R163: the slot erase in flight has ended, its slot ERASED or still DIRTY. -/
theorem Store.Sound.eraseEnded {st : Store} (h : st.Sound) {slot : Nat} (he : st.eraseNow = some slot) {m : Memory}
    {sl : Vector SlotState 64} (hwf : Memory.wf storeDefault m)
    (hmem : ∀ c ∈ m, c ∈ st.mem ∨ (slot * 2048 ≤ c.1 ∧ c.1 < (slot + 1) * 2048))
    (hother : ∀ k : Fin 64, k.1 ≠ slot → sl[k] = st.slots[k])
    (hthis : ∀ k : Fin 64, k.1 = slot → sl[k] = .dirty ∨ (sl[k] = .erased ∧ slotErased m slot = true)) :
    ({ st with mem := m, slots := sl } : Store).eraseNext.Sound := by
  obtain ⟨⟨hdir, hent, hslots⟩, ⟨hload, -⟩, ⟨hphase, -, hknown, -, herase, hrows, -⟩, ⟨-, -, hprot, -⟩,
    ⟨-, hbound, herased, -⟩⟩ := h
  obtain ⟨hno, hascending, hdirty⟩ := herase slot he
  have hopen := Store.eraseNow_eq_some.mp he
  have hrun : st.phase = .running := by
    cases hp : st.phase with
    | running => rfl
    | starting =>
      have := hphase.mp hp
      rw [hopen] at this
      cases this
  have hrow : st.rowNow = none := by simp [Store.rowNow, hopen]
  have hnoload (k : Fin 64) : st.slots[k] ≠ .loading := fun hc => by
    obtain ⟨x, hx, -⟩ := (hload k).mp hc
    rw [hno] at hx
    cases hx
  have hlt : slot < 64 := Store.slot_lt (hdirty slot List.mem_cons_self) (by decide)
  have hwas : st.slots[(⟨slot, hlt⟩ : Fin 64)] = .dirty :=
    (st.slot_fin ⟨slot, hlt⟩).symm.trans (hdirty slot List.mem_cons_self)
  have hcases (k : Fin 64) : (k.1 = slot ∧ st.slots[k] = .dirty ∧
      (sl[k] = .dirty ∨ (sl[k] = .erased ∧ slotErased m slot = true))) ∨
      (k.1 ≠ slot ∧ sl[k] = st.slots[k]) := by
    by_cases hk : k.1 = slot
    · refine .inl ⟨hk, ?_, hthis k hk⟩
      rw [show k = ⟨slot, hlt⟩ from Fin.ext hk]
      exact hwas
    · exact .inr ⟨hk, hother k hk⟩
  have hkeeps (k : Fin 64) (v : SlotState) (hv : v ≠ .dirty) (hv' : v ≠ .erased) : sl[k] = v ↔ st.slots[k] = v := by
    rcases hcases k with ⟨-, hd, hn | ⟨hn, -⟩⟩ | ⟨-, hn⟩
    · rw [hd, hn]
    · rw [hd, hn]
      exact ⟨fun hc => absurd hc.symm hv', fun hc => absurd hc.symm hv⟩
    · rw [hn]
  have hquiet (op : Option StoreOp) (hop : op = none ∨ ∃ k, op = some (.slotErase k)) (rest : List Nat)
      (hnow : ∀ k, op = some (.slotErase k) → (∀ j ∈ k :: rest, j ∈ st.erasesWaiting) ∧ (k :: rest).Pairwise (· < ·))
      (hrest : op = none → rest = []) :
      ({ st with mem := m, slots := sl, op := op, erasesWaiting := rest } : Store).Sound := by
    have hnothing : ({ st with op := op } : Store).rowNow = none ∧ ({ st with op := op } : Store).protectNow = none ∧
        op ≠ some .startUpScan := by
      rcases hop with rfl | ⟨k, rfl⟩ <;> exact ⟨rfl, rfl, nofun⟩
    have hnext {k : Nat} (hk : ({ st with op := op } : Store).eraseNow = some k) (j : Nat) (hj : j ∈ k :: rest) :
        j ≠ slot ∧ st.slot j = .dirty ∧ st.slotProtected j = false := by
      have hj := (hnow k (Store.eraseNow_eq_some.mp hk)).1 j hj
      refine ⟨?_, hdirty j (List.mem_cons_of_mem _ hj), hprot slot he j (List.mem_cons_of_mem _ hj)⟩
      have := (List.pairwise_cons.mp hascending).1 j hj
      omega
    have hother' (k : Nat) (hk : k ≠ slot) (hb : slotErased st.mem k = true) : slotErased m k = true := by
      unfold slotErased inSlot at hb ⊢
      rw [List.all_eq_true] at hb ⊢
      intro c hc
      rcases hmem c hc with hc | hc
      · exact hb c hc
      · have : ¬ (k * 2048 ≤ c.1 ∧ c.1 < (k + 1) * 2048) := by omega
        simp [this]
    refine ⟨⟨hdir, hent, fun k => ?_⟩, ⟨fun k => ⟨fun hc => ?_, fun ⟨x, hx, _⟩ => ?_⟩, fun x hx => ?_⟩,
      ⟨⟨fun hc => ?_, fun hc => absurd hc hnothing.2.2⟩, fun hc => ?_, fun _ k => ?_, fun j hj => ?_, fun k hk => ?_,
        fun _ => hrows hrow, fun hc => ?_⟩,
      ⟨fun k hk => ?_, fun j hj => ?_, fun k hk j hj => ?_, fun g hg => ?_⟩,
      ⟨hwf, fun c hc => ?_, fun k hk => ?_, fun x hx => ?_⟩⟩
    · rw [hkeeps k .head nofun nofun, hkeeps k .tail nofun nofun]
      exact hslots k
    · exact absurd ((hkeeps k .loading nofun nofun).mp hc) (hnoload k)
    · cases hno.symm.trans hx
    · cases hno.symm.trans hx
    · cases hrun.symm.trans hc
    · cases hrun.symm.trans hc
    · intro hc
      exact hknown hrun k ((hkeeps k .unknown nofun nofun).mp hc)
    · cases hnothing.1.symm.trans hj
    · refine ⟨hno, (hnow k (Store.eraseNow_eq_some.mp hk)).2, fun j hj => ?_⟩
      obtain ⟨hne, hd, -⟩ := hnext hk j hj
      have hj64 := Store.slot_lt hd (by decide)
      rw [Store.slot_fin _ ⟨j, hj64⟩] at hd ⊢
      exact (hother ⟨j, hj64⟩ hne).trans hd
    · rcases hop with rfl | ⟨k, rfl⟩
      · exact hrest rfl
      · cases hc
    · exact absurd ((hkeeps k .loading nofun nofun).mp hk) (hnoload k)
    · cases hnothing.1.symm.trans hj
    · exact (hnext hk j hj).2.2
    · cases hnothing.2.1.symm.trans hg
    · rcases hmem c hc with hc | hc
      · exact hbound c hc
      · omega
    · rcases hcases k with ⟨hks, -, hn | ⟨-, hb⟩⟩ | ⟨hks, hn⟩
      · cases hn.symm.trans hk
      · rw [hks]; exact hb
      · exact hother' k.1 hks (herased k (hn.symm.trans hk))
    · cases hno.symm.trans hx
  unfold Store.eraseNext
  split
  · rename_i next rest hw
    have hw : st.erasesWaiting = next :: rest := hw
    refine hquiet _ (.inr ⟨next, rfl⟩) rest (fun k hk => ?_) nofun
    cases hk
    rw [hw] at hascending
    exact ⟨fun j hj => hw ▸ hj, (List.pairwise_cons.mp hascending).2⟩
  · rename_i hw
    exact hquiet none (.inl rfl) st.erasesWaiting (fun k hk => (nomatch hk)) fun _ => hw

/-! ### PROTECT (R164) -/

/-- R164: a control update begins on an idle store; the flag of a group with a LOADING slot is not turned on. -/
theorem Store.Sound.beginControl {st : Store} (h : st.Sound) (hop : st.op = none) {g : Fin 16} {setting : Bool}
    (hload : setting = true → ∀ k : Fin 64, k.1 / 4 = g.1 → st.slots[k] ≠ .loading) :
    ({ st with op := some (.controlUpdate g setting) } : Store).Sound := by
  have hrun := h.running_of_idle hop
  obtain ⟨hrow, herase, -⟩ := st.nothingNow_of_idle hop
  have hflight : st.rowInFlight = false := by rw [Store.rowInFlight_eq, hrow]; rfl
  obtain ⟨hdir, ⟨hsl, hsess⟩, ⟨-, -, hknown, -, -, hrows, hwait⟩, ⟨hprot, -⟩, hmem⟩ := h
  refine ⟨hdir, ⟨hsl, fun x hx => ?_⟩, ⟨⟨fun hc => ?_, fun hc => (nomatch hc)⟩, fun hc => ?_, hknown,
    fun j hj => (nomatch hj), fun k hk => (nomatch hk), fun _ => hrows hrow, fun _ => hwait herase⟩,
    ⟨hprot, fun j hj => (nomatch hj), fun k hk => (nomatch hk), fun g' hg => ?_⟩, hmem⟩
  · obtain ⟨hcount, hfit, hform, hexp, hbegun, hlook, hab, -, -, hlen⟩ := hsess x hx
    refine ⟨hcount, hfit, hform, hexp, hbegun, hlook, fun hc => ?_, fun _ => rfl, fun _ hc => (nomatch hc), hlen⟩
    rw [hflight] at hab
    exact absurd (hab hc) nofun
  · cases hrun.symm.trans hc
  · cases hrun.symm.trans hc
  · have hg := Store.protectNow_eq_some.mp hg
    cases hg
    exact hload rfl

theorem Store.slotProtected_set (st : Store) (g : Fin 16) (setting : Bool) (k : Fin 64) :
    ({ st with protect := st.protect.set g.1 setting g.2 } : Store).slotProtected k.1 =
      if k.1 / 4 = g.1 then setting else st.slotProtected k.1 := by
  have hlt : k.1 / 4 < 16 := by omega
  unfold Store.slotProtected Store.groupProtected
  rw [dif_pos hlt, dif_pos hlt]
  dsimp only
  rw [Vector.getElem_set]
  simp only [eq_comm]

/-- R164: the control update in flight ends, its flag set or kept. -/
theorem Store.Sound.endControl {st : Store} (h : st.Sound) {g : Fin 16} {setting : Bool}
    (hop : st.op = some (.controlUpdate g setting)) {protect : Vector Bool 16}
    (hp : protect = st.protect ∨ protect = st.protect.set g.1 setting g.2) :
    ({ st with op := none, protect := protect } : Store).Sound := by
  have hrow : st.rowNow = none := by simp [Store.rowNow, hop]
  have herase : st.eraseNow = none := by simp [Store.eraseNow, hop]
  have hflight : st.rowInFlight = false := by rw [Store.rowInFlight_eq, hrow]; rfl
  obtain ⟨hdir, ⟨hsl, hsess⟩, ⟨hphase, -, hknown, -, -, hrows, hwait⟩, ⟨hprot, -, -, hnow⟩, hmem⟩ := h
  have hrun : st.phase = .running := by
    cases hph : st.phase with
    | running => rfl
    | starting => cases (hphase.mp hph).symm.trans hop
  refine ⟨hdir, ⟨hsl, fun x hx => ?_⟩, ⟨⟨fun hc => ?_, fun hc => (nomatch hc)⟩, fun hc => ?_, hknown,
    fun j hj => (nomatch hj), fun k hk => (nomatch hk), fun _ => hrows hrow, fun _ => hwait herase⟩,
    ⟨fun k hk => ?_, fun j hj => (nomatch hj), fun k hk => (nomatch hk), fun g' hg => (nomatch hg)⟩, hmem⟩
  · obtain ⟨hcount, hfit, hform, hexp, hbegun, hlook, hab, -, -, hlen⟩ := hsess x hx
    refine ⟨hcount, hfit, hform, hexp, hbegun, hlook, fun hc => ?_, fun _ => rfl, fun _ hc => (nomatch hc), hlen⟩
    rw [hflight] at hab
    exact absurd (hab hc) nofun
  · cases hrun.symm.trans hc
  · cases hrun.symm.trans hc
  · rcases hp with rfl | rfl
    · exact hprot k hk
    · refine (st.slotProtected_set g setting k).trans ?_
      split
      · rename_i hg
        cases setting with
        | false => rfl
        | true => exact absurd hk (hnow g (Store.protectNow_eq_some.mpr hop) k hg)
      · exact hprot k hk

/-! ### The start-up scan (R149, R150) -/

theorem headerOf_valid {m : Memory} {slot : Nat} {h : Header} (hh : headerOf m slot = some h) : h.valid = true := by
  unfold headerOf at hh
  split at hh
  · dsimp only at hh
    split at hh
    · rename_i hv
      cases hh
      exact hv.1
    · cases hh
  · cases hh

/-- R149 step 2: a template found at a slot has its header rows in place. -/
theorem templateAt_spec {m : Memory} {slot : Nat} {e : DirEntry} (h : templateAt m slot = some e) :
    e.first = slot ∧ slot + e.count ≤ 64 ∧ (1 ≤ e.count ∧ e.count ≤ 8) ∧ (1 ≤ e.form.toNat ∧ e.form.toNat ≤ 250) ∧
      (16 ≤ e.length ∧ e.length ≤ 1984 * e.count) ∧
      ∀ j < e.count, headerOf m (slot + j) =
        some { form := e.form, index := j, count := e.count, length := e.length } := by
  unfold templateAt at h
  split at h
  · cases h
  · rename_i hd hh
    split at h
    · rename_i hc
      cases h
      obtain ⟨-, hfit, hrows⟩ := hc
      have hv := of_decide_eq_true (headerOf_valid hh)
      obtain ⟨h1, h2, h3, h4, -, h5, h6⟩ := hv
      refine ⟨rfl, hfit, ⟨h3, h4⟩, ⟨h1, h2⟩, ⟨h5, h6⟩, fun j hj => ?_⟩
      have := List.all_eq_true.mp hrows j (List.mem_range.mpr hj)
      exact beq_iff_eq.mp this
    · cases h

/-- R149 steps 2 and 3: what the examination of slots in turn has found. -/
theorem findTemplates_sound {m : Memory} {slots : List Nat} {next : Nat} {found : List DirEntry}
    (hpair : found.Pairwise fun d e => d.first + d.count ≤ e.first ∧ d.form ≠ e.form)
    (hfound : ∀ e ∈ found, e.first + e.count ≤ next ∧ templateAt m e.first = some e) :
    (findTemplates m slots next found).Pairwise (fun d e => d.first + d.count ≤ e.first ∧ d.form ≠ e.form) ∧
      ∀ e ∈ findTemplates m slots next found, templateAt m e.first = some e := by
  induction slots generalizing next found with
  | nil => exact ⟨hpair, fun e he => (hfound e he).2⟩
  | cons slot slots ih =>
    unfold findTemplates
    split
    · exact ih hpair hfound
    · rename_i hnext
      split
      · exact ih hpair hfound
      · rename_i he
        split
        · exact ih hpair hfound
        · rename_i hform
          obtain ⟨hfirst, -⟩ := templateAt_spec he
          refine ih (List.pairwise_append.mpr ⟨hpair, List.pairwise_singleton _ _, fun d hd x hx => ?_⟩) fun d hd => ?_
          · rw [List.mem_singleton.mp hx]
            have hle := (hfound d hd).1
            refine ⟨by omega, fun hc => hform (List.any_eq_true.mpr ⟨d, hd, by simp [hc]⟩)⟩
          · rcases List.mem_append.mp hd with hd | hd
            · obtain ⟨hle, ht⟩ := hfound d hd
              exact ⟨by omega, ht⟩
            · rw [List.mem_singleton.mp hd, hfirst]
              exact ⟨Nat.le_refl _, he⟩

theorem scanDirectory_sound (m : Memory) :
    (scanDirectory m).Pairwise (fun d e => d.first + d.count ≤ e.first ∧ d.form ≠ e.form) ∧
      ∀ e ∈ scanDirectory m, templateAt m e.first = some e :=
  findTemplates_sound .nil fun _ he => (nomatch he)

/-- R149: the state of a slot by the directory. -/
theorem scanSlot_cases (m : Memory) (k : Nat) :
    (∃ e ∈ scanDirectory m, e.covers k = true ∧
      scanSlot m (scanDirectory m) k = if e.first = k then .head else .tail) ∨
    ((∀ e ∈ scanDirectory m, e.covers k = false) ∧
      scanSlot m (scanDirectory m) k = if slotErased m k then .erased else .dirty) := by
  unfold scanSlot
  split
  · rename_i e he
    exact .inl ⟨e, List.mem_of_find?_eq_some he, List.find?_some (p := fun d : DirEntry => d.covers k) he, rfl⟩
  · rename_i hn
    exact .inr ⟨fun d hd => by simpa using List.find?_eq_none.mp hn d hd, rfl⟩

/-- R149: the slot table of the scan agrees with its directory. -/
theorem scanSlot_spec (m : Memory) (k : Nat) :
    (scanSlot m (scanDirectory m) k = .head ↔ ∃ e ∈ scanDirectory m, e.first = k) ∧
    (scanSlot m (scanDirectory m) k = .tail ↔ ∃ e ∈ scanDirectory m, e.first < k ∧ k < e.first + e.count) := by
  obtain ⟨hpair, htemplate⟩ := scanDirectory_sound m
  have hcovers {e : DirEntry} (he : e ∈ scanDirectory m) : e.covers e.first = true := by
    have := (templateAt_spec (htemplate e he)).2.2.1
    rw [DirEntry.covers_iff]
    omega
  rcases scanSlot_cases m k with ⟨e, he, hk, hv⟩ | ⟨hno, hv⟩
  · rw [hv]
    have hcov := (e.covers_iff k).mp hk
    have hall {d : DirEntry} (hd : d ∈ scanDirectory m) (hdk : d.covers k = true) : d = e :=
      directory_unique hpair hd he hdk hk
    split
    · rename_i hf
      refine ⟨⟨fun _ => ⟨e, he, hf⟩, fun _ => rfl⟩, ⟨fun hc => (nomatch hc), fun ⟨d, hd, hlow, hhigh⟩ => ?_⟩⟩
      have := hall hd ((d.covers_iff k).mpr ⟨hlow.le, hhigh⟩)
      subst this
      omega
    · rename_i hf
      refine ⟨⟨fun hc => (nomatch hc), fun ⟨d, hd, hfirst⟩ => ?_⟩, ⟨fun _ => ⟨e, he, by omega, hcov.2⟩, fun _ => rfl⟩⟩
      exact absurd (hall hd (hfirst ▸ hcovers hd) ▸ hfirst) hf
  · rw [hv]
    refine ⟨⟨fun hc => ?_, fun ⟨d, hd, hfirst⟩ => ?_⟩, ⟨fun hc => ?_, fun ⟨d, hd, hlow, hhigh⟩ => ?_⟩⟩
    · split at hc <;> cases hc
    · have := hno d hd
      rw [← hfirst, hcovers hd] at this
      cases this
    · split at hc <;> cases hc
    · have := hno d hd
      rw [(d.covers_iff k).mpr ⟨hlow.le, hhigh⟩] at this
      cases this

theorem Store.scanned_slot (st : Store) (k : Fin 64) :
    st.scanned.slots[k] = scanSlot st.mem (scanDirectory st.mem) k.1 := by
  simp [Store.scanned]

/-- R149: a slot of the scanned table is ERASED, DIRTY, or in a template. -/
theorem scanSlot_known (m : Memory) (k : Nat) :
    scanSlot m (scanDirectory m) k ≠ .loading ∧ scanSlot m (scanDirectory m) k ≠ .unknown ∧
      (scanSlot m (scanDirectory m) k = .erased → slotErased m k = true) := by
  rcases scanSlot_cases m k with ⟨e, -, -, hv⟩ | ⟨-, hv⟩ <;> rw [hv] <;> split <;> simp_all

/-- R149: the scan's directory and slot table are sound for every memory. -/
theorem Store.scanned_directorySound (st : Store) : st.scanned.DirectorySound := by
  obtain ⟨hpair, htemplate⟩ := scanDirectory_sound st.mem
  refine ⟨hpair, fun e he => ?_, fun k => ?_⟩
  · obtain ⟨-, hfit, hcount, hform, hlen, -⟩ := templateAt_spec (htemplate e he)
    exact ⟨hcount, hfit, hform, hlen⟩
  · rw [Store.scanned_slot]
    exact scanSlot_spec st.mem k.1

theorem Store.scanned_frame (st : Store) :
    st.scanned =
      { st with phase := .running, op := none, directory := st.scanned.directory, slots := st.scanned.slots } := rfl

theorem Store.Sound.scanned {st : Store} (h : st.Sound) (hop : st.op = some .startUpScan) : st.scanned.Sound := by
  have hdir := st.scanned_directorySound
  have hslot (k : Fin 64) : st.scanned.slots[k] ≠ .loading ∧ st.scanned.slots[k] ≠ .unknown ∧
      (st.scanned.slots[k] = .erased → slotErased st.mem k.1 = true) := by
    rw [Store.scanned_slot]
    exact scanSlot_known st.mem k.1
  have hrow : st.rowNow = none := by simp [Store.rowNow, hop]
  have herase : st.eraseNow = none := by simp [Store.eraseNow, hop]
  obtain ⟨-, -, ⟨hphase, hstart, -, -, -, hrows, hwait⟩, -, ⟨hwf, hmem, -, -⟩⟩ := h
  obtain ⟨-, -, hno⟩ := hstart (hphase.mpr hop)
  rw [Store.scanned_frame] at hdir ⊢
  revert hdir hslot
  generalize st.scanned.slots = sl
  generalize st.scanned.directory = dir
  intro hdir hslot
  refine ⟨hdir, ⟨fun k => ⟨fun hc => absurd hc (hslot k).1, fun ⟨x, hx, _⟩ => ?_⟩, fun x hx => ?_⟩,
    ⟨⟨fun hc => (nomatch hc), fun hc => (nomatch hc)⟩, fun hc => (nomatch hc), fun _ k => (hslot k).2.1,
      fun j hj => (nomatch hj), fun k hk => (nomatch hk), fun _ => hrows hrow, fun _ => hwait herase⟩,
    ⟨fun k hk => absurd hk (hslot k).1, fun j hj => (nomatch hj), fun k hk => (nomatch hk), fun g hg => (nomatch hg)⟩,
    ⟨hwf, hmem, fun k hk => (hslot k).2.2 hk, fun x hx => ?_⟩⟩
  · cases hno.symm.trans hx
  · cases hno.symm.trans hx
  · cases hno.symm.trans hx

/-- R148: the store while the start-up scan runs. -/
theorem Store.starting_sound {m : Memory} (protect : Vector Bool 16) (hwf : Memory.wf storeDefault m)
    (hmem : ∀ c ∈ m, c.1 < 131072) : (Store.starting m protect).Sound := by
  have hslot (k : Fin 64) : (Store.starting m protect).slots[k] = .unknown := by
    simp [Store.starting]
  refine ⟨⟨.nil, fun e he => (nomatch he), fun k => ?_⟩, ⟨fun k => ?_, fun x hx => (nomatch hx)⟩,
    ⟨⟨fun _ => rfl, fun _ => rfl⟩, fun _ => ⟨rfl, rfl, rfl⟩, fun hc => (nomatch hc), fun j hj => (nomatch hj),
      fun k hk => (nomatch hk), fun _ => rfl, fun _ => rfl⟩,
    ⟨fun k hk => ?_, fun j hj => (nomatch hj), fun k hk => (nomatch hk), fun g hg => (nomatch hg)⟩,
    ⟨hwf, hmem, fun k hk => ?_, fun x hx => (nomatch hx)⟩⟩
  · rw [hslot]
    exact ⟨⟨fun hc => (nomatch hc), fun ⟨e, he, _⟩ => (nomatch he)⟩, ⟨fun hc => (nomatch hc), fun ⟨e, he, _⟩ => (nomatch he)⟩⟩
  · rw [hslot]
    exact ⟨fun hc => (nomatch hc), fun ⟨x, hx, _⟩ => (nomatch hx)⟩
  · rw [hslot] at hk; cases hk
  · rw [hslot] at hk; cases hk

end Sys2Proof.Machine
end

section
/-! SUPPORT. The template store: the completions of its operations and the requests of the host keep it sound (O59). -/

namespace Sys2Proof.Machine

/-! ### Completions (R150, R158, R160, R161, R163, R164) -/

theorem State.programRow_store (s : State) (job : RowJob) (success : Bool) :
    ∃ bytes : List Byte, (s.programRow job success).store = { s.store with mem := putRow s.store.mem job bytes } ∧
      (job.bytes.length = 64 → bytes.length = 64) := by
  unfold State.programRow
  split
  · exact ⟨job.bytes, rfl, id⟩
  · exact ⟨_, rfl, fun hj => length_failedRow job _ (s.takeFree_length 64) hj⟩

/-- R158, R160, R161: what follows a row put in place. -/
theorem State.rowSuccess_sound {s : State} (h : s.store.Sound) {job : RowJob} (hj : s.store.rowNow = some job)
    {ss : Session} (hs : s.store.session = some ss) : (s.rowSuccess ss).store.Sound := by
  obtain ⟨x, hx, -, -, hheld, hrows⟩ := h.row_session hj
  obtain rfl := Option.some.inj (hx.symm.trans hs)
  obtain ⟨-, ⟨-, hsess⟩, -⟩ := id h
  obtain ⟨-, -, -, -, -, -, -, hfail, hopen, hclosing⟩ := hsess x hs
  have hflight : s.store.rowInFlight = true := by rw [Store.rowInFlight_eq, hj]; rfl
  unfold State.rowSuccess
  split
  · exact h.endSession hs (.inl rfl)
  · rename_i hab
    split
    · rename_i next rest hw
      have hnotfailed : x.failed = false := by
        cases hf : x.failed with
        | false => rfl
        | true => cases hflight.symm.trans (hfail hf)
      have hsame : ({ s.store with session := some { x with closing := x.closing, frameRows := x.frameRows } } : Store) =
          s.store := by rw [← hs]
      rw [hw] at hheld hrows
      have hnext := h.beginRow hs hnotfailed (fun hc => hopen hc hflight) hclosing (job := next) (rest := rest) hheld
        fun j hj => hrows j (List.mem_cons_of_mem _ hj)
      rw [hsame] at hnext
      exact hnext
    · change (s.store.finishRows x).Sound
      unfold Store.finishRows
      split
      · rename_i length hcl
        exact h.listTemplate hs hcl
      · rename_i hcl
        exact h.idle hs (by simpa using hab) hcl (hopen hcl hflight)

theorem State.rowFailure_sound {s : State} (h : s.store.Sound) {ss : Session} (hs : s.store.session = some ss) :
    (s.rowFailure ss).store.Sound := by
  obtain ⟨-, ⟨-, hsess⟩, -⟩ := id h
  obtain ⟨-, -, -, hexp, -⟩ := hsess ss hs
  unfold State.rowFailure
  split
  · exact h.endSession hs (.inl rfl)
  · rename_i hc
    obtain ⟨hab, hcl⟩ := not_or.mp hc
    exact h.idle hs (by simpa using hab) (by simpa using hcl) hexp

theorem State.rowComplete_sound {s : State} (h : s.store.Sound) (success : Bool) :
    (s.rowComplete success).store.Sound := by
  have hput {job : RowJob} (hj : s.store.rowNow = some job) (success : Bool) :
      (s.programRow job success).store.Sound ∧ (s.programRow job success).store.rowNow = some job ∧
        (s.programRow job success).store.session = s.store.session := by
    obtain ⟨-, -, -, -, -, hrows⟩ := h.row_session hj
    obtain ⟨bytes, hstore, hlen⟩ := s.programRow_store job success
    rw [hstore]
    exact ⟨h.rowPut hj (hlen (hrows job List.mem_cons_self).1), hj, rfl⟩
  unfold State.rowComplete
  split
  · rename_i job ss hop hs
    have hj := Store.rowNow_eq_some.mpr hop
    split
    · obtain ⟨hsound, hnow, hsess⟩ := hput hj true
      exact State.rowSuccess_sound hsound hnow (hsess.trans hs)
    · obtain ⟨hsound, -, hsess⟩ := hput hj false
      exact State.rowFailure_sound hsound (hsess.trans hs)
  · rename_i job hop hno
    obtain ⟨ss, hs, -⟩ := h.row_session (Store.rowNow_eq_some.mpr hop)
    cases hno.symm.trans hs
  · exact h

theorem slotErased_eraseSlot (m : Memory) (slot : Nat) : slotErased (eraseSlot m slot) slot = true := by
  unfold slotErased eraseSlot
  rw [List.all_eq_true]
  exact fun c hc => (List.mem_filter.mp hc).2

theorem mem_putSlot {m : Memory} {slot : Nat} {bytes : List Byte} (hlen : bytes.length = 2048) {c : Host.Cell}
    (hc : c ∈ putSlot m slot bytes) : c ∈ m ∨ (slot * 2048 ≤ c.1 ∧ c.1 < (slot + 1) * 2048) := by
  rcases Memory.mem_writeList hc with hc | ⟨hlow, hhigh, -⟩
  · exact .inl (List.mem_of_mem_filter hc)
  · unfold rowAddress at hlow hhigh
    omega

/-- R163: what one slot erase leaves of the store. -/
theorem State.eraseOne_store (s : State) (slot : Nat) (success : Bool) :
    (s.eraseOne slot success).store =
      if success then
        { s.store with mem := eraseSlot s.store.mem slot
                       slots := (s.store.setSlots (fun k => decide (k = slot)) .erased).slots }
      else { s.store with mem := putSlot s.store.mem slot (failedSlot (s.takeFree 2048).1) } := by
  unfold State.eraseOne
  cases success <;> simp only [Store.slotDone, Store.setSlots] <;> rfl

theorem State.eraseComplete_store (s : State) (success : Bool) {slot : Nat} (hop : s.store.op = some (.slotErase slot)) :
    (s.eraseComplete success).store = (s.eraseOne slot success).store.eraseNext := by
  unfold State.eraseComplete Store.eraseNext
  rw [hop]
  dsimp only
  cases (s.eraseOne slot success).store.erasesWaiting <;> rfl

theorem State.eraseComplete_sound {s : State} (h : s.store.Sound) (success : Bool) :
    (s.eraseComplete success).store.Sound := by
  cases he : s.store.eraseNow with
  | none =>
    unfold State.eraseComplete
    split
    · rename_i slot hop
      cases he.symm.trans (Store.eraseNow_eq_some.mpr hop)
    · exact h
  | some slot =>
    rw [s.eraseComplete_store success (Store.eraseNow_eq_some.mp he), s.eraseOne_store]
    obtain ⟨-, -, ⟨-, -, -, -, herase, -⟩, -, ⟨hwf, -⟩⟩ := id h
    have hdirty := (herase slot he).2.2 slot List.mem_cons_self
    split
    · refine h.eraseEnded he (eraseSlot_wf _ _ hwf) (fun c hc => .inl (List.mem_of_mem_filter hc)) (fun k hk => ?_)
        fun k hk => .inr ⟨?_, slotErased_eraseSlot _ _⟩
      · rw [Store.setSlots_get, if_neg (by simpa using hk)]
      · rw [Store.setSlots_get, if_pos (by simpa using hk)]
    · refine h.eraseEnded he (putSlot_wf _ _ _ hwf) (fun c hc => mem_putSlot ?_ hc) (fun _ _ => rfl) fun k hk => .inl ?_
      · rw [length_failedSlot, State.takeFree_length]
      · rw [← hk, Store.slot_fin] at hdirty
        exact hdirty

theorem State.controlComplete_sound {s : State} (h : s.store.Sound) (success : Bool) :
    (s.controlComplete success).store.Sound := by
  unfold State.controlComplete
  split
  · rename_i g setting hop
    split
    · exact h.endControl hop (.inr rfl)
    · exact h.endControl hop (.inl rfl)
  · exact h

theorem State.scanComplete_sound {s : State} (h : s.store.Sound) : s.scanComplete.store.Sound := by
  unfold State.scanComplete
  split
  · rename_i hop
    have hscanned : (s.setStore s.store.scanned).store.Sound := h.scanned hop
    dsimp only
    split
    · exact hscanned
    · exact hscanned
  · exact h

/-- R152: what a reset leaves of the memory. -/
theorem State.abandonOp_memory {s : State} (h : s.store.Sound) :
    Memory.wf storeDefault s.abandonOp.store.mem ∧ ∀ c ∈ s.abandonOp.store.mem, c.1 < 131072 := by
  obtain ⟨-, -, ⟨-, -, -, -, herase, -⟩, -, ⟨hwf, hmem, -⟩⟩ := id h
  unfold State.abandonOp
  split
  · rename_i job hop
    have hj := Store.rowNow_eq_some.mpr hop
    obtain ⟨ss, hs, -, hheld, -, hrows⟩ := h.row_session hj
    obtain ⟨hbytes, hrow⟩ := hrows job List.mem_cons_self
    have hfit := (h.session_bounds hs).2
    have hslot := (ss.holds_iff _).mp hheld
    refine ⟨putRow_wf _ _ _ hwf, fun c hc => ?_⟩
    rcases Memory.mem_writeList hc with hc | ⟨-, hhigh, -⟩
    · exact hmem c hc
    · rw [length_interruptedRow job _ (s.takeFree_length 64) hbytes] at hhigh
      unfold rowAddress at hhigh
      omega
  · rename_i slot hop
    have hlt := Store.slot_lt ((herase slot (Store.eraseNow_eq_some.mpr hop)).2.2 slot List.mem_cons_self) (by decide)
    have hput {free : List Byte} (hfree : free.length = 2048) :
        Memory.wf storeDefault (putSlot s.store.mem slot (interruptedSlot free)) ∧
          ∀ c ∈ putSlot s.store.mem slot (interruptedSlot free), c.1 < 131072 := by
      refine ⟨putSlot_wf _ _ _ hwf, fun c hc => ?_⟩
      rcases mem_putSlot ((length_interruptedSlot free).trans hfree) hc with hc | hc
      · exact hmem c hc
      · omega
    have hfree := s.takeFree_length 2048
    revert hfree
    generalize s.takeFree 2048 = f
    exact fun hfree => hput hfree
  · exact ⟨hwf, hmem⟩

theorem State.afterReset_store_sound {s : State} (h : s.store.Sound) (a : Byte) (r : BitVec 2) :
    (s.afterReset a r).store.Sound := Store.starting_sound _ (State.abandonOp_memory h).1 (State.abandonOp_memory h).2

/-! ### Requests (R156 to R164) -/

/-- Which handlings change the store. -/
def DownKind.changesStore : DownKind → Bool
  | .loadOpen => true
  | .loadData => true
  | .loadClose => true
  | .loadAbandon => true
  | .eraseSlots => true
  | .protect => true
  | _ => false

theorem handleClassSet_store (p : List Byte) (s : State) : (handleClassSet p s).2.store = s.store := by
  unfold handleClassSet
  split
  · split
    · split
      · rfl
      · unfold State.setClass
        split <;> rfl
    · rfl
  · rfl

theorem handleKeymapSet_store (p : List Byte) (s : State) : (handleKeymapSet p s).2.store = s.store := by
  unfold handleKeymapSet
  repeat' split
  all_goals rfl

theorem handleAttentionClear_store (p : List Byte) (s : State) : (handleAttentionClear p s).2.store = s.store := by
  unfold handleAttentionClear
  repeat' split
  all_goals rfl

theorem handleAttentionMask_store (p : List Byte) (s : State) : (handleAttentionMask p s).2.store = s.store := by
  unfold handleAttentionMask
  split <;> rfl

theorem State.handle_store {s : State} {k : DownKind} (hk : k.changesStore = false) (st : Byte) (p : List Byte) :
    (s.handle k st p).2.store = s.store := by
  have controller {handled : Reply × State} (h : handled.2.store = s.store) :
      (toController st s handled).2.store = s.store :=
    toController_keeps (P := fun t => t.store = s.store) rfl h
  cases k <;> cases hk
  case write => exact (s.handle_stationStep (k := .write) rfl st p).store
  case stationSetup => exact (s.handle_stationStep (k := .stationSetup) rfl st p).store
  case broadcastMessage => exact (s.handle_stationStep (k := .broadcastMessage) rfl st p).store
  case poll =>
    have hpoll : s.handle .poll st p =
        if st = 0x00#8 then handlePoll none p s else toStation st s fun n => handlePoll (some n) p s := rfl
    rw [hpoll]
    split
    · rw [handlePoll_state]
    · exact toStation_keeps (P := fun t => t.store = s.store) rfl fun n => by rw [handlePoll_state]
  case readForm =>
    exact toStation_keeps (P := fun t => t.store = s.store) rfl fun n => by rw [handleReadForm_state]
  case status => exact controller (by rw [handleStatus_state])
  case stationRead => exact controller (by rw [handleStationRead_state])
  case classSet => exact controller (handleClassSet_store p s)
  case keymapSet => exact controller (handleKeymapSet_store p s)
  case attentionRead => exact controller (by rw [handleAttentionRead_state])
  case attentionClear => exact controller (handleAttentionClear_store p s)
  case attentionMask => exact controller (handleAttentionMask_store p s)
  case countersRead => exact controller (by rw [handleCountersRead_state])
  case restart => exact controller (by rw [handleRestart_state])
  case directoryRead => exact controller (by rw [handleDirectoryRead_state])

theorem Store.activeSession_eq_some {st : Store} {ss : Session} :
    st.activeSession = some ss ↔ st.session = some ss ∧ ss.abandoning = false := by
  simp [Store.activeSession, Option.filter_eq_some_iff]

theorem handleLoadOpen_sound {s : State} (h : s.store.Sound) (p : List Byte) : (handleLoadOpen p s).2.store.Sound := by
  unfold handleLoadOpen
  split
  · exact h
  · rename_i hno
    split
    · exact h
    · rename_i hop
      split
      · rename_i form first count
        split
        · exact h
        · rename_i hparam
          split
          · exact h
          · rename_i hfault
            exact h.openSession (by simpa using hop) (by simpa using hno) (by omega) (by omega) (by omega) hfault
      · exact h

/-- R157: the rows of a LOAD DATA frame. -/
theorem rowsOf_spec (k : Nat) (bytes : List Byte) (h : 64 * k ≤ bytes.length) :
    (rowsOf k bytes).length = k ∧ ∀ r ∈ rowsOf k bytes, r.length = 64 := by
  induction k generalizing bytes with
  | zero => exact ⟨rfl, fun r hr => (nomatch hr)⟩
  | succ k ih =>
    obtain ⟨hlen, hrows⟩ := ih (bytes.drop 64) (by rw [List.length_drop]; omega)
    refine ⟨by rw [rowsOf, List.length_cons, hlen], fun r hr => ?_⟩
    rcases List.mem_cons.mp hr with rfl | hr
    · rw [List.length_take]; omega
    · exact hrows r hr

/-- R158: the places of the row programs of image rows from k on. -/
theorem mem_dataJobs {first k : Nat} {rows : List (List Byte)} {j : RowJob} (h : j ∈ dataJobs first k rows) :
    ∃ i < rows.length, j.slot = first + (k + i) / 31 ∧ j.row = 1 + (k + i) % 31 ∧ j.bytes ∈ rows := by
  induction rows generalizing k with
  | nil => cases h
  | cons r rows ih =>
    rcases List.mem_cons.mp h with rfl | h
    · exact ⟨0, Nat.zero_lt_succ _, rfl, rfl, List.mem_cons_self⟩
    · obtain ⟨i, hi, hs, hr, hb⟩ := ih h
      refine ⟨i + 1, Nat.succ_lt_succ hi, ?_, ?_, List.mem_cons_of_mem _ hb⟩
      · rw [hs]; congr 2; omega
      · rw [hr]; congr 2; omega

theorem Store.Sound.beginData {st : Store} (h : st.Sound) {ss : Session} (hs : st.session = some ss)
    (hfail : ss.failed = false) (hop : st.op = none) {data : List Byte}
    (hfit : ss.expected + data.length / 64 ≤ ss.capacity) : (st.beginData ss data).Sound := by
  obtain ⟨-, ⟨-, hsess⟩, -⟩ := id h
  obtain ⟨-, -, -, -, -, -, hclose, -⟩ := hsess ss hs
  have hflight : st.rowInFlight = false := by
    rw [Store.rowInFlight_eq, (st.nothingNow_of_idle hop).1]; rfl
  have hclosing : ss.closing = none := by
    cases hc : ss.closing with
    | none => rfl
    | some length => cases hflight.symm.trans (hclose (.inr (by rw [hc]; rfl)))
  unfold Store.beginData
  split
  · exact h
  · rename_i job rest hjobs
    have hsame : ({ ss with closing := none, frameRows := data.length / 64 } : Session) =
        { ss with frameRows := data.length / 64 } := by rw [← hclosing]
    obtain ⟨hrowslen, hrows⟩ := rowsOf_spec (data.length / 64) data (Nat.mul_div_le _ _)
    have hplace (j : RowJob) (hj : j ∈ job :: rest) :
        ss.holds j.slot = true ∧ j.bytes.length = 64 ∧ j.row < 32 := by
      rw [← hjobs] at hj
      obtain ⟨i, hi, hslot, hrow, hb⟩ := mem_dataJobs hj
      rw [hrowslen] at hi
      unfold Session.capacity at hfit
      refine ⟨(ss.holds_iff _).mpr ?_, hrows _ hb, by omega⟩
      have : (ss.expected + i) / 31 < ss.count := by omega
      omega
    rw [← hsame]
    exact h.beginRow (closing := none) hs hfail (fun _ => hfit) (fun l hl => (nomatch hl))
      (fun j hj => (hplace j hj).1) fun j hj => (hplace j hj).2

theorem handleLoadData_sound {s : State} (h : s.store.Sound) (p : List Byte) : (handleLoadData p s).2.store.Sound := by
  unfold handleLoadData
  split
  · exact h
  · rename_i ss hactive
    obtain ⟨hs, -⟩ := Store.activeSession_eq_some.mp hactive
    split
    · exact h
    · rename_i hfail
      split
      · exact h
      · rename_i hop
        split
        · exact h
        · rename_i row data
          split
          · exact h
          · split
            · exact h
            · rename_i hrow
              split
              · exact h
              · rename_i hfit
                exact h.beginData hs (by simpa using hfail) (by simpa using hop) (by omega)

theorem Header.length_row (h : Header) : h.row.length = 64 := by
  simp [Header.row, bytes2]

theorem Session.mem_headerJobs {ss : Session} {length : Nat} {j : RowJob} (hc : 1 ≤ ss.count)
    (h : j ∈ ss.headerJobs length) : ss.holds j.slot = true ∧ j.bytes.length = 64 ∧ j.row < 32 := by
  obtain ⟨i, hi, rfl⟩ : ∃ i < ss.count, j = ss.headerJob length i := by
    rcases List.mem_append.mp h with h | h
    · obtain ⟨i, hi, rfl⟩ := List.mem_map.mp h
      have := List.mem_range.mp hi
      exact ⟨i + 1, by omega, rfl⟩
    · exact ⟨0, by omega, List.mem_singleton.mp h⟩
  refine ⟨(ss.holds_iff _).mpr ?_, Header.length_row _, Nat.zero_lt_succ _⟩
  unfold Session.headerJob
  dsimp only
  omega

/-- R154 check 1: an image that passes its checks has a length of 16 up to the rows loaded. -/
theorem imageFault_length {image : List Byte} {form : Byte} {closing rows : Nat}
    (h : imageFault image form closing rows = none) : 16 ≤ closing ∧ closing ≤ 64 * rows := by
  unfold imageFault at h
  split at h
  · cases h
  · rename_i hh
    unfold headerFault at hh
    split at hh
    · cases hh
    · omega

theorem Store.Sound.beginClose {st : Store} (h : st.Sound) {ss : Session} (hs : st.session = some ss)
    (hfail : ss.failed = false) {length : Nat} (hlow : 16 ≤ length) (hhigh : length ≤ 64 * ss.expected) :
    (st.beginClose ss length).Sound := by
  obtain ⟨-, ⟨-, hsess⟩, -⟩ := id h
  obtain ⟨hcount, -, -, hexp, -⟩ := hsess ss hs
  unfold Store.beginClose
  split
  · exact h
  · rename_i job rest hjobs
    have hplace (j : RowJob) (hj : j ∈ job :: rest) := Session.mem_headerJobs (length := length) hcount.1 (hjobs ▸ hj)
    refine h.beginRow (closing := some length) (frameRows := ss.frameRows) hs hfail nofun (fun l hl => ?_)
      (fun j hj => (hplace j hj).1) fun j hj => (hplace j hj).2
    cases hl
    unfold Session.capacity at hexp
    omega

theorem Store.endSession_of_idle {st : Store} (hop : st.op = none) (ss : Session) :
    st.endSession ss = ({ st with op := none } : Store).endSession ss := by rw [← hop]

theorem handleLoadClose_sound {s : State} (h : s.store.Sound) (p : List Byte) :
    (handleLoadClose p s).2.store.Sound := by
  unfold handleLoadClose
  split
  · exact h
  · rename_i ss hactive
    obtain ⟨hs, -⟩ := Store.activeSession_eq_some.mp hactive
    split
    · exact h
    · rename_i hfail
      split
      · exact h
      · rename_i hop
        split
        · split
          · change (s.store.endSession ss).Sound
            rw [Store.endSession_of_idle (by simpa using hop)]
            exact h.endSession hs (.inl rfl)
          · rename_i hfault
            obtain ⟨hlow, hhigh⟩ := imageFault_length hfault
            exact h.beginClose hs (by simpa using hfail) hlow hhigh
        · exact h

/-- R161: the abandoning mark is set while a row program is in flight. -/
theorem Store.Sound.abandoning {st : Store} (h : st.Sound) {ss : Session} (hs : st.session = some ss)
    (hrow : st.rowInFlight = true) : ({ st with session := some { ss with abandoning := true } } : Store).Sound := by
  have hrun := h.running hs
  obtain ⟨hnoerase, hnowait⟩ := h.no_erase hs
  have hload := h.loading_iff hs
  obtain ⟨hdir, ⟨-, hsess⟩, ⟨hphase, -, hknown, hrows, -, hnorow, -⟩, hprot, ⟨hwf, hmem, herased, hblank⟩⟩ := h
  obtain ⟨hcount, hfit, hform, hexp, hbegun, hlook, -, hfail, hopen, hlen⟩ := hsess ss hs
  refine ⟨hdir, ⟨fun k => ?_, fun x hx => ?_⟩, ⟨hphase, fun hc => ?_, hknown, fun j hj => ?_, fun k hk => ?_, hnorow,
    fun _ => hnowait⟩, hprot, ⟨hwf, hmem, herased, fun x hx k hk hno => ?_⟩⟩
  · refine (hload k).trans ⟨fun hk => ⟨_, rfl, hk⟩, fun ⟨x, hx, hk⟩ => ?_⟩
    cases hx
    exact hk
  · cases hx
    exact ⟨hcount, hfit, hform, hexp, hbegun, hlook, fun _ => hrow, hfail, hopen, hlen⟩
  · cases hrun.symm.trans hc
  · obtain ⟨⟨x, hx, hb, hw⟩, hj⟩ := hrows j hj
    obtain rfl := Option.some.inj (hs.symm.trans hx)
    exact ⟨⟨_, rfl, hb, hw⟩, hj⟩
  · cases hnoerase.symm.trans hk
  · cases hx
    exact hblank ss hs k hk hno

theorem handleLoadAbandon_sound {s : State} (h : s.store.Sound) (p : List Byte) :
    (handleLoadAbandon p s).2.store.Sound := by
  unfold handleLoadAbandon
  split
  · exact h
  · rename_i ss hactive
    obtain ⟨hs, -⟩ := Store.activeSession_eq_some.mp hactive
    split
    · change (s.store.abandon ss).Sound
      unfold Store.abandon
      split
      · rename_i hrow
        exact h.abandoning hs hrow
      · rename_i hrow
        rw [Store.rowInFlight_eq] at hrow
        exact h.endSession hs (op := s.store.op) (.inr ⟨rfl, by simpa using hrow⟩)
    · exact h

theorem handleEraseSlots_sound {s : State} (h : s.store.Sound) (p : List Byte) :
    (handleEraseSlots p s).2.store.Sound := by
  unfold handleEraseSlots
  dsimp only
  split
  · exact h
  · rename_i hop
    split
    · exact h
    · rename_i hno
      split
      · rename_i first last
        split
        · exact h
        · rename_i hparam
          split
          · exact h
          · rename_i hst
            split
            · exact h
            · rename_i slot rest hlist
              have hlist' : s.store.eraseList first.toNat last.toNat = slot :: rest := hlist
              have hcondemned := h.condemn (by simpa using hop) (by simpa using hno) (by omega)
                (fun e he => by simpa using List.find?_eq_none.mp hst e he) hlist'
              rw [hlist'] at hcondemned
              change ((s.store.condemn (List.filter _ _)).beginErase slot rest).Sound
              rw [hlist]
              exact hcondemned
      · exact h

theorem handleProtect_sound {s : State} (h : s.store.Sound) (p : List Byte) : (handleProtect p s).2.store.Sound := by
  unfold handleProtect
  split
  · exact h
  · rename_i hop
    split
    · rename_i group setting
      split
      · rename_i hg
        split
        · exact h
        · split
          · exact h
          · rename_i hload
            refine h.beginControl (by simpa using hop) fun hset k hk hc => hload ⟨of_decide_eq_true hset, ?_⟩
            refine List.any_eq_true.mpr ⟨k.1, (mem_slotRange _ _ _).mpr ?_, ?_⟩
            · dsimp only at hk
              omega
            · rw [Store.slot_fin, hc]
              rfl
      · exact h
    · exact h

theorem State.handle_changesStore_sound {s : State} (h : s.store.Sound) {k : DownKind} (hk : k.changesStore = true)
    (st : Byte) (p : List Byte) : (s.handle k st p).2.store.Sound := by
  have controller {handled : Reply × State} (hh : handled.2.store.Sound) :
      (toController st s handled).2.store.Sound :=
    toController_keeps (P := fun t => t.store.Sound) h hh
  cases k <;> cases hk
  case loadOpen => exact controller (handleLoadOpen_sound h p)
  case loadData => exact controller (handleLoadData_sound h p)
  case loadClose => exact controller (handleLoadClose_sound h p)
  case loadAbandon => exact controller (handleLoadAbandon_sound h p)
  case eraseSlots => exact controller (handleEraseSlots_sound h p)
  case protect => exact controller (handleProtect_sound h p)

theorem State.handle_store_sound {s : State} (h : s.store.Sound) (k : DownKind) (st : Byte) (p : List Byte) :
    (s.handle k st p).2.store.Sound := by
  cases hk : k.changesStore with
  | true => exact State.handle_changesStore_sound h hk st p
  | false =>
    rw [State.handle_store hk]
    exact h

/-! ### Commands and steps -/

theorem State.Runs.storeSound {s t : State} (hs : s.store.Sound) (h : s.Runs t) : t.store.Sound := by
  cases h with
  | line h => rw [h.store]; exact hs
  | @handled u h ha k st p hk => exact State.handle_store_sound (s := u) (by rw [h.store]; exact hs) k st p
  | @reset u h a r => exact State.afterReset_store_sound (s := u) (by rw [h.store]; exact hs) a r
  | @released a n ha hk hn =>
    rw [(State.StationStep.completeRelease s.byteSeen n).store]
    exact hs
  | scanned => exact State.scanComplete_sound hs
  | row success => exact State.rowComplete_sound hs success
  | erased success => exact State.eraseComplete_sound hs success
  | control success => exact State.controlComplete_sound hs success
  | link n op => rw [(op.stationStep s n).store]; exact hs

/-- Settles O59: each kind of change a step can make keeps the store sound. -/
theorem stepKeepsStoreSound : Obligations.StepKeepsStoreSound := by
  intro s t hs h
  exact step_keeps (I := fun s => s.store.Sound) (fun s p k hs => hs) (fun s t hs h => h.storeSound hs)
    (fun s hs => hs) hs h

end Sys2Proof.Machine
end

section
/-! SUPPORT. The step, the reset, and the bytes and frames of the host line (R167 to R179). -/

namespace Sys2Proof.Machine

/-! ### The step and the queue of commands -/

/-- Settles O1: a step on a queue that is not empty runs its front. -/
theorem stepRunsFrontCommand : Obligations.StepRunsFrontCommand := by
  intro c rest s h
  unfold step
  rw [h]

theorem State.handle_pending (s : State) (k : DownKind) (st : Byte) (p : List Byte) :
    (s.handle k st p).2.pending = s.pending := by
  cases hk : k.changesStations with
  | true => exact (s.handle_stationStep hk st p).pending
  | false => rw [s.handle_controlStep hk st p]

theorem State.StoreStep.pending {s t : State} (h : s.StoreStep t) : t.pending = s.pending := by rw [h]

theorem State.Runs.pending {s t : State} (h : s.Runs t) : t.pending = s.pending := by
  cases h with
  | line h => exact h.pending
  | @handled u h ha k st p hk => exact (u.handle_pending k st p).trans h.pending
  | @reset u h a r => exact h.pending
  | @released a n ha hk hn => exact (State.StationStep.completeRelease s.byteSeen n).pending
  | scanned => exact s.scanComplete_storeStep.pending
  | row success => exact (s.rowComplete_storeStep success).pending
  | erased success => exact (s.eraseComplete_storeStep success).pending
  | control success => exact (s.controlComplete_storeStep success).pending
  | link n op => exact (op.stationStep s n).pending

/-- Settles O2: no kind of change a command makes touches the waiting commands. -/
theorem commandsKeepWaitingQueue : Obligations.CommandsKeepWaitingQueue := fun _ _ _ h => (exec_runs h).pending

/-! ### Reset (R148, R152, R178, R179) -/

theorem State.station_reset (n : StationIx) : State.reset.station n = Station.atReset := by
  simp [State.station, State.reset]

/-- Settles O4: the state after reset meets each invariant. -/
theorem resetStateIsSound : Obligations.ResetStateIsSound := by
  refine ⟨fun n => ?_, fun n => ?_, (State.reset.afterReset_joint 0x01#8 0).2,
    Store.starting_sound _ Memory.wf_nil (fun c hc => (nomatch hc)), ⟨Memory.wf_nil, fun c hc => (nomatch hc)⟩,
    ⟨by decide, Nat.le_refl 2, fun a ha => (nomatch ha), fun p hp => (nomatch hp)⟩⟩
  · rw [State.station_reset]
    exact Station.atReset_sheet_sound
  · rw [State.station_reset]
    exact Station.atReset_sound

theorem classRec_reset (k : Fin 16) : classRec (Vector.replicate 15 ClassRec.zero) k = ClassRec.zero := by
  unfold classRec
  split
  · rfl
  · exact Vector.getElem_replicate _

/-- R76: an unlisted entry of a key map is map 0's. -/
theorem mapDefault_address (m plane code : Nat) (hplane : plane < 4) (hcode : code < 128) :
    (mapDefault (mapAddress m plane code), mapDefault (mapAddress m plane code + 1)) = mapZero plane code := by
  unfold mapDefault mapAddress
  have h1 : ((m * 4 + plane) * 128 + code) * 2 % 2 = 0 := by omega
  have h2 : (((m * 4 + plane) * 128 + code) * 2 + 1) % 2 ≠ 0 := by omega
  have h3 : ((m * 4 + plane) * 128 + code) * 2 / 2 / 128 % 4 = plane := by omega
  have h4 : ((m * 4 + plane) * 128 + code) * 2 / 2 % 128 = code := by omega
  have h5 : (((m * 4 + plane) * 128 + code) * 2 + 1) / 2 / 128 % 4 = plane := by omega
  have h6 : (((m * 4 + plane) * 128 + code) * 2 + 1) / 2 % 128 = code := by omega
  rw [if_pos h1, if_neg h2, h3, h4, h5, h6]

/-- Section 10.7: what every reset gives. -/
theorem State.afterReset_values (s : State) (a : Byte) (r : BitVec 2) : s.ResetValues (s.afterReset a r) := by
  refine ⟨⟨rfl, rfl, rfl⟩, ⟨rfl, rfl, rfl⟩, s.station_afterReset a r, classRec_reset, fun m plane code hp hc => ?_, rfl,
    fun i => ?_, rfl, rfl, rfl, rfl, fun k => ?_, rfl, rfl, s.abandonOp_protect⟩
  · unfold State.mapEntry
    split
    · rfl
    · exact mapDefault_address m.1 plane code hp hc
  · simp [State.afterReset, State.reset]
  · simp [State.afterReset, Store.starting]

theorem strapAddress_toNat (unit : BitVec 5) : (strapAddress unit).toNat = if unit = 0 then 1 else unit.toNat := by
  unfold strapAddress
  split
  · rfl
  · have := unit.isLt
    rw [BitVec.toNat_setWidth]
    omega

/-- R173, R179: the ACCEPT of a RESTART completes. -/
theorem State.completeAnswer_restart {s : State} {a : Answer} (ha : s.answer = some a) (hs : a.sending = true)
    (hk : a.kind = .accept) (hr : a.restart = true) : s.completeAnswer = s.byteSeen.restart := by
  simp [State.completeAnswer, ha, hs, State.handOn, hk, hr]

/-- Settles O5: both resets give the same values; the RESTART frame is answered and does nothing more. -/
theorem resetGivesEveryBlockItsValues : Obligations.ResetGivesEveryBlockItsValues := by
  refine ⟨fun s unit rate => ⟨_, rfl, s.afterReset_values _ _, strapAddress_toNat unit, rfl⟩, fun s hs => ?_,
    fun s a ha hsend hk hr => ?_⟩
  · exact exec_serving hs .restart 0x00#8 (p := []) (Nat.zero_le _)
  · have h : exec .answerComplete s = .next s.completeAnswer := rfl
    rw [State.completeAnswer_restart ha hsend hk hr] at h
    exact ⟨_, h, s.byteSeen.afterReset_values _ _, rfl, rfl⟩

/-- R152: a reset abandons no byte outside the row or slot in flight. -/
theorem State.abandonOp_outside {s : State} (hwork : s.store.WorkSound) {a : Nat}
    (hrow : ∀ job ∈ s.store.rowNow, a < rowAddress job.slot job.row ∨ rowAddress job.slot job.row + 64 ≤ a)
    (herase : ∀ k ∈ s.store.eraseNow, inSlot k a = false) : s.abandonOp.storeByte a = s.storeByte a := by
  obtain ⟨-, -, -, hjob, -⟩ := hwork
  unfold State.abandonOp
  split
  · rename_i job hop
    have hj := Store.rowNow_eq_some.mpr hop
    have hbytes := ((hjob job hj).2 job List.mem_cons_self).1
    have hout := hrow job hj
    rw [← length_interruptedRow job (s.takeFree 64).1 (s.takeFree_length 64) hbytes] at hout
    exact putRow_outside _ _ _ _ hout
  · rename_i slot hop
    have hout := herase slot (Store.eraseNow_eq_some.mpr hop)
    have hfree := s.takeFree_length 2048
    revert hfree
    generalize s.takeFree 2048 = f
    exact fun hfree => putSlot_outside _ _ _ _ (by rw [length_interruptedSlot, hfree]) hout
  · rfl

/-- R144, R152: a header row whose program a reset abandons has no mark. -/
theorem State.abandonOp_unmarked {s : State} (hwork : s.store.WorkSound) (hmem : s.store.MemorySound) {job : RowJob}
    (hj : s.store.rowNow = some job) (hr : job.row = 0) : s.abandonOp.storeByte (rowAddress job.slot 0 + 63) = 0xFF#8 := by
  obtain ⟨-, -, -, hjob, -⟩ := hwork
  obtain ⟨hwf, -⟩ := hmem
  have hbytes := ((hjob job hj).2 job List.mem_cons_self).1
  have hlen := length_interruptedRow job (s.takeFree 64).1 (s.takeFree_length 64) hbytes
  have hmark := interruptedRow_unmarked job (s.takeFree 64).1 hr hbytes
  have hlt : 63 < (interruptedRow job (s.takeFree 64).1).length := by rw [hlen]; decide
  have hput := putRow_inside s.store.mem job _ 63 hwf hlt
  rw [hr, ← List.getD_eq_getElem _ 0x00#8 hlt, hmark] at hput
  unfold State.abandonOp
  rw [Store.rowNow_eq_some.mp hj]
  exact hput

/-- Settles O6: the bytes a reset leaves are those of the abandoned operation. -/
theorem resetKeepsTemplateMemory : Obligations.ResetKeepsTemplateMemory := by
  intro s t unit rate hwork hmem h
  have hbytes (a : Nat) : t.storeByte a = s.abandonOp.storeByte a := by
    rcases h with h | ⟨⟨x, hx, hsend, hk, hr⟩, h⟩
    · cases h; rfl
    · have hc : exec .answerComplete s = .next s.completeAnswer := rfl
      rw [hc, State.completeAnswer_restart hx hsend hk hr] at h
      cases h
      have hsame : s.byteSeen.abandonOp.storeByte a = s.abandonOp.storeByte a := by
        unfold State.abandonOp
        have hop : s.byteSeen.store.op = s.store.op := rfl
        rw [hop]
        split <;> rfl
      exact hsame
  refine ⟨fun a hrow herase => ?_, fun job hj hr => ?_⟩
  · rw [hbytes, State.abandonOp_outside hwork hrow herase]
  · rw [hbytes, State.abandonOp_unmarked hwork hmem hj hr]
    decide

/-! ### Receiving bytes (R167 to R169) -/

theorem State.goodByte_hunting {s : State} {b : Byte} (hr : s.receiver = .hunting) :
    s.goodByte b =
      if b = 0xC3#8 ∧ s.lineQuiet then { s.byteSeen with receiver := .inFrame [] gapTime } else s.byteSeen := by
  unfold State.goodByte
  rw [hr]

/-- R167: a byte while HUNTING that is no mark. -/
theorem State.goodByte_discarded {s : State} {b : Byte} (hr : s.receiver = .hunting)
    (hno : ¬ (b = 0xC3#8 ∧ s.lineQuiet = true)) : s.goodByte b = { s with answer := none, quietLeft := 2 } := by
  rw [State.goodByte_hunting hr, if_neg hno]
  rfl

/-- R167: a mark. -/
theorem State.goodByte_mark {s : State} (hr : s.receiver = .hunting) (hq : s.lineQuiet = true) :
    s.goodByte 0xC3#8 = { s with answer := none, quietLeft := 2, receiver := .inFrame [] 20 } := by
  rw [State.goodByte_hunting hr, if_pos ⟨rfl, hq⟩]
  rfl

theorem State.lineQuiet_iff (s : State) : s.lineQuiet = true ↔ s.hostDriverEnabled = false ∧ s.quietLeft = 0 := by
  simp [State.lineQuiet]

/-- R168: a byte while IN FRAME. -/
theorem State.goodByte_inFrame {s : State} {b : Byte} {bytes : List Byte} {left : Nat}
    (hr : s.receiver = .inFrame bytes left) : s.goodByte b = s.byteSeen.frameBytes (bytes ++ [b]) := by
  unfold State.goodByte
  rw [hr]

theorem State.abortingByte_hunting {s : State} (hr : s.receiver = .hunting) :
    s.abortingByte = { s with answer := none, quietLeft := 2 } := by
  have hseen : s.abortingByte = s.byteSeen := by
    unfold State.abortingByte
    rw [hr]
  exact hseen

theorem State.abortingByte_inFrame {s : State} {bytes : List Byte} {left : Nat}
    (hr : s.receiver = .inFrame bytes left) :
    s.abortingByte =
      { s with answer := none, quietLeft := 2, receiver := .hunting, framingErrors := s.framingErrors + 1 } := by
  unfold State.abortingByte
  rw [hr]
  rfl

/-- Settles O7: the quiet before 0xC3 decides. -/
theorem markNeedsQuiet : Obligations.MarkNeedsQuiet := by
  intro s hr hh
  have hmark : exec .mark s = .next (s.goodByte 0xC3#8) :=
    congrArg Host.Outcome.next (State.takeByte_good (State.readsBack_idle hh _ _))
  refine ⟨fun hq => ?_, fun hq => ?_, ?_⟩
  · rw [hmark, State.goodByte_mark hr ((s.lineQuiet_iff).mpr ⟨hh, hq⟩)]
  · rw [hmark, State.goodByte_discarded hr fun hc => hq ((s.lineQuiet_iff).mp hc.2).2]
  · change Host.Outcome.next (if s.hostDriverEnabled then s else { s with quietLeft := 0 }) = _
    rw [hh]
    rfl

theorem lengthField_short {bytes : List Byte} (h : bytes.length < 5) : lengthField bytes = none := by
  unfold lengthField
  split
  · simp at h
    omega
  · rfl

/-- R168: the bytes up to the second length byte join the frame. -/
theorem State.frameBytes_short (s : State) {bytes : List Byte} (h : bytes.length < 5) :
    s.frameBytes bytes = { s with receiver := .inFrame bytes 20 } := by
  unfold State.frameBytes
  rw [lengthField_short h]
  rfl

/-- R168: a length above 2048 aborts the frame. -/
theorem State.frameBytes_tooLong (s : State) {bytes : List Byte} {len : Nat} (h : lengthField bytes = some len)
    (hlen : 2048 < len) : s.frameBytes bytes = s.abortFrame := by
  unfold State.frameBytes
  rw [h]
  exact if_pos hlen

theorem State.gapTimeout_inFrame {s : State} {bytes : List Byte} {left : Nat} (hr : s.receiver = .inFrame bytes left) :
    s.gapTimeout = { s with receiver := .hunting, quietLeft := 0, framingErrors := s.framingErrors + 1 } := by
  unfold State.gapTimeout
  rw [hr]
  rfl

/-- Settles O8: byte by byte, by the receiver's state. -/
theorem frameBytesTakenOrAborted : Obligations.FrameBytesTakenOrAborted := by
  intro s b hsent
  have hback : s.readsBack b false = false := by
    rw [Bool.eq_false_iff]
    intro hc
    obtain ⟨-, a, ha, hs, hb⟩ := (s.readsBack_iff b false).mp hc
    exact hsent a ha hs hb
  have hgood : exec (.hostLineByte b false) s = .next (s.goodByte b) :=
    congrArg Host.Outcome.next (State.takeByte_good hback)
  have hbad : exec (.hostLineByte b true) s = .next s.abortingByte :=
    congrArg Host.Outcome.next (s.takeByte_badStop b)
  refine ⟨fun hr => ⟨fun hb => ?_, ?_⟩, fun bytes left hr => ⟨fun hlen => ?_, fun unit station kind hi hbytes hlen => ?_,
    ?_, ?_, ?_, fun hh => ?_⟩⟩
  · rw [hgood, State.goodByte_discarded hr fun hc => hb hc.1]
  · rw [hbad, State.abortingByte_hunting hr]
  · rw [hgood, State.goodByte_inFrame hr, State.frameBytes_short]
    · rfl
    · rw [List.length_append, List.length_singleton]
      omega
  · rw [hgood, State.goodByte_inFrame hr, hbytes, State.frameBytes_tooLong (len := number [hi, b]) _ rfl hlen]
    rfl
  · rw [hbad, State.abortingByte_inFrame hr]
  · have : exec .frameAbort s = .next s.abortingByte := by
      change execFrameAbort s = _
      unfold execFrameAbort
      rw [hr]
    rw [this, State.abortingByte_inFrame hr]
  · have : exec .frameGapTimeout s = .next s.gapTimeout := rfl
    rw [this, State.gapTimeout_inFrame hr]
  · have hgap : exec .frameGapTimeout s = .next s.gapTimeout := rfl
    have hmark := markNeedsQuiet { s with receiver := .hunting, quietLeft := 0, framingErrors := s.framingErrors + 1 } rfl hh
    unfold runAll
    rw [hgap, State.gapTimeout_inFrame hr]
    unfold runAll
    dsimp only
    rw [hmark.1 rfl]
    rfl

/-! ### Dispatch (R174) -/

theorem exec_unknownKind (st kind : Byte) (p : List Byte) (s : State) :
    exec (.unknownKind st kind p) s = .next (s.takeFrame kind st p) := rfl

/-- R174: a refusal of dispatch, as an answer. -/
theorem State.takeFrame_refused {s : State} (hh : s.hostDriverEnabled = false) {kind st : Byte} {p : List Byte}
    (hp : p.length ≤ 2048) {r : Reason} {a d : Nat}
    (h : s.byteSeen.hunt.dispatch kind st p = (refuse r a d, s.byteSeen.hunt)) :
    s.takeFrame kind st p = s.withRefusal st r.code (byte1 a) d := by
  rw [State.takeFrame_ready hh _ _ hp, State.answerFrame, h]
  exact respond_refuse s st r a d

theorem State.dispatch_starting {s : State} (h : s.store.phase = .starting) {kind : Byte} (hk : kind ≠ 0x10#8)
    (st : Byte) (p : List Byte) : s.dispatch kind st p = (refuse .starting 0 0, s) := by
  unfold State.dispatch
  exact if_pos ⟨h, hk⟩

theorem DownKind.code_ne_status {k : DownKind} (hk : k ≠ .status) : k.code ≠ 0x10#8 := by
  intro hc
  have h := DownKind.ofByte_code k
  rw [hc] at h
  exact hk (Option.some.inj h).symm

theorem State.dispatch_kind {s : State} {k : DownKind} (h : s.store.phase = .running ∨ k = .status) (st : Byte)
    (p : List Byte) : s.dispatch k.code st p = s.handle k st p := by
  have hno : ¬ (s.store.phase = .starting ∧ k.code ≠ DownKind.status.code) := by
    rintro ⟨hp, hk⟩
    rcases h with h | h
    · cases h.symm.trans hp
    · exact hk (by rw [h])
  unfold State.dispatch
  rw [if_neg hno, DownKind.ofByte_code]

/-- Settles O11: the first check of dispatch that applies. -/
theorem dispatchRefusesInOrder : Obligations.DispatchRefusesInOrder := by
  intro s st p hh hp
  refine ⟨fun hs => ⟨fun kind hk => ?_, fun k hk => ?_⟩, fun hs kind hk => ?_, fun k hs hk => ?_⟩
  · rw [exec_unknownKind, State.takeFrame_refused hh hp (State.dispatch_starting (s := s.byteSeen.hunt) hs hk st p)]
    rfl
  · rw [exec_command, State.takeFrame_refused hh hp
      (State.dispatch_starting (s := s.byteSeen.hunt) hs (DownKind.code_ne_status hk) st p)]
    rfl
  · have hno : ¬ (s.byteSeen.hunt.store.phase = .starting ∧ kind ≠ DownKind.status.code) :=
      fun hc => by cases hs.symm.trans hc.1
    have hdispatch : s.byteSeen.hunt.dispatch kind st p = (refuse .unknownKind 0 kind.toNat, s.byteSeen.hunt) := by
      unfold State.dispatch
      rw [if_neg hno, DownKind.ofByte_none hk]
    rw [exec_unknownKind, State.takeFrame_refused hh hp hdispatch]
    rfl
  · have hdispatch : s.byteSeen.hunt.dispatch k.code st p = (refuse .badStation 0 st.toNat, s.byteSeen.hunt) := by
      rw [State.dispatch_kind (s := s.byteSeen.hunt) hs]
      exact State.handle_bad _ k st p hk
    rw [exec_command, State.takeFrame_refused hh hp hdispatch]
    rfl

/-! ### The status octet (R176, R192) -/

theorem getLsbD_bitAt {i : Nat} (hi : i < 8) (f : Bool) (j : Nat) :
    (bitAt i f).getLsbD j = (f && decide (j = i)) := by
  unfold bitAt
  cases f with
  | false => simp
  | true =>
    rw [if_pos rfl, BitVec.getLsbD_ofNat, Nat.testBit_two_pow, Bool.true_and]
    by_cases hj : j = i
    · simp [hj, hi]
    · simp [hj, Ne.symm hj]

theorem State.attention_iff (s : State) : s.attention = true ↔
    s.causes[0] &&& ~~~s.ctlMask ≠ 0x00#8 ∨ ∃ n : StationIx, s.causes[causeIx n] &&& ~~~s.stationMask ≠ 0x00#8 := by
  simp [State.attention, List.any_eq_true]

/-- Settles O12: each position of the octet is one condition's. -/
theorem statusOctetShowsConditions : Obligations.StatusOctetShowsConditions := by
  intro s
  have hbit (i : Nat) : s.statusOctet.getLsbD i =
      ((s.store.phase == .starting && decide (i = 0)) || (s.attention && decide (i = 1)) ||
        (!s.rq.queue.isEmpty && decide (i = 2)) || (s.store.op.isSome && decide (i = 3)) ||
        (s.store.session.isSome && decide (i = 4))) := by
    unfold State.statusOctet
    simp only [BitVec.getLsbD_or]
    rw [getLsbD_bitAt (by decide), getLsbD_bitAt (by decide), getLsbD_bitAt (by decide), getLsbD_bitAt (by decide),
      getLsbD_bitAt (by decide)]
  refine ⟨?_, ?_, ?_, ?_, ?_, fun i hi => ?_⟩
  · rw [hbit]
    simp
  · rw [hbit, ← State.attention_iff]
    simp
  · rw [hbit]
    simp
  · rw [hbit]
    simp [Option.isSome_iff_ne_none]
  · rw [hbit]
    simp [Option.isSome_iff_ne_none]
  · rw [hbit]
    have : i ≠ 0 ∧ i ≠ 1 ∧ i ≠ 2 ∧ i ≠ 3 ∧ i ≠ 4 := by omega
    simp [this]

/-! ### The answer in flight (R171 to R173) -/

theorem State.startSending_pending {s : State} {a : Answer} (ha : s.answer = some a) (hs : a.sending = false) :
    s.startSending = { s with answer := some { a with sending := true }, quietLeft := 2 } := by
  unfold State.startSending
  rw [ha]
  dsimp only
  rw [hs]
  rfl

/-- R172: the bytes of an answer being sent, read back from its first byte not yet read back on. -/
theorem runAll_readBack {s : State} {a : Answer} (hs : a.sending = true) (rest : List Byte) {sent : List Byte}
    (hframe : a.frame = sent ++ rest) :
    runAll (bytesArrive rest) { s with answer := some { a with readBack := sent.length }, quietLeft := 2 } =
      .next { s with answer := some { a with readBack := a.frame.length }, quietLeft := 2 } := by
  induction rest generalizing sent with
  | nil =>
    rw [hframe, List.append_nil]
    rfl
  | cons b rest ih =>
    have hb : a.frame[sent.length]? = some b := by rw [hframe]; simp
    have hstep : exec (.hostLineByte b false)
        { s with answer := some { a with readBack := sent.length }, quietLeft := 2 } =
        .next { s with answer := some { a with readBack := sent.length + 1 }, quietLeft := 2 } :=
      congrArg Host.Outcome.next (State.takeByte_readBack (a := { a with readBack := sent.length }) rfl hs hb)
    have hnext := ih (sent := sent ++ [b]) (by rw [hframe, List.append_assoc]; rfl)
    rw [List.length_append, List.length_singleton] at hnext
    unfold bytesArrive List.map runAll
    rw [hstep]
    exact hnext

/-- Settles O13: the sending of an answer from its first byte to its completion. -/
theorem answerIsSentAndCompletes : Obligations.AnswerIsSentAndCompletes := by
  intro s a ha
  refine ⟨fun hs => ?_, fun hs hk hr => ?_⟩
  · have hstart : exec .answerSendStart s = .next { s with answer := some { a with sending := true }, quietLeft := 2 } :=
      congrArg Host.Outcome.next (State.startSending_pending ha hs)
    refine ⟨hstart, rfl, fun hback => ?_⟩
    have hrun := runAll_readBack (s := s) (a := { a with sending := true }) rfl
      ({ a with sending := true } : Answer).frame (sent := []) rfl
    have hsame : ({ a with sending := true } : Answer) = { a with sending := true, readBack := 0 } := by rw [← hback]
    unfold runAll
    rw [hstart]
    dsimp only
    rw [hsame]
    exact hrun
  · change Host.Outcome.next s.completeAnswer = _
    unfold State.completeAnswer
    rw [ha]
    dsimp only
    rw [hs, if_pos rfl]
    unfold State.handOn
    rw [if_neg hk, hr]
    rfl

/-- R172: a byte that is not the one being sent arrives on an answer in flight. -/
theorem State.takeByte_abandons {s : State} {b : Byte} {badStop : Bool} (hr : s.receiver = .hunting)
    (hback : s.readsBack b badStop = false) (hno : ¬ (badStop = false ∧ b = 0xC3#8 ∧ s.lineQuiet = true)) :
    s.takeByte b badStop = { s with answer := none, quietLeft := 2 } := by
  cases badStop with
  | true => rw [State.takeByte_badStop, State.abortingByte_hunting hr]
  | false =>
    rw [State.takeByte_good hback]
    exact State.goodByte_discarded hr fun hc => hno ⟨rfl, hc⟩

theorem exec_answerAbandoned {s : State} {a : Answer} (ha : s.answer = some a) {b : Byte} {badStop : Bool}
    (hback : s.readsBack b badStop = false) : exec (.answerAbandoned b badStop) s = .next (s.takeByte b badStop) := by
  change Host.Outcome.next (if s.answer = none ∨ s.readsBack b badStop then s else s.takeByte b badStop) = _
  rw [if_neg]
  rintro (hc | hc)
  · cases hc.symm.trans ha
  · cases hc.symm.trans hback

theorem State.hostDriverEnabled_of {s : State} {a : Answer} (ha : s.answer = some a) :
    s.hostDriverEnabled = a.sending := by
  unfold State.hostDriverEnabled
  rw [ha]
  rfl

/-- Settles O14: by whether the answer is pending or being sent, and by the byte. -/
theorem abandonedAnswerLosesOnlyTheAnswer : Obligations.AbandonedAnswerLosesOnlyTheAnswer := by
  refine ⟨fun s b badStop ha => ?_, fun s a b badStop ha hr => ⟨fun hcase c hc => ?_, fun hs hq => ?_, fun hs hb => ?_⟩⟩
  · change Host.Outcome.next (if s.answer = none ∨ s.readsBack b badStop then s else s.takeByte b badStop) = _
    rw [if_pos (.inl ha)]
  · have hback : s.readsBack b badStop = false := by
      rw [Bool.eq_false_iff]
      intro hback
      obtain ⟨hgood, x, hx, hsend, hb⟩ := (s.readsBack_iff b badStop).mp hback
      obtain rfl := Option.some.inj (ha.symm.trans hx)
      rcases hcase with ⟨-, hbad | hne⟩ | ⟨hpend, -⟩
      · cases hgood.symm.trans hbad
      · exact hne hb
      · cases hsend.symm.trans hpend
    have hno : ¬ (badStop = false ∧ b = 0xC3#8 ∧ s.lineQuiet = true) := by
      rintro ⟨hgood, hmark, hquiet⟩
      obtain ⟨hh, hq⟩ := (s.lineQuiet_iff).mp hquiet
      rw [State.hostDriverEnabled_of ha] at hh
      rcases hcase with ⟨hsend, -⟩ | ⟨-, hne | hbad | hne⟩
      · cases hsend.symm.trans hh
      · exact hne hq
      · cases hgood.symm.trans hbad
      · exact hne hmark
    have htake := State.takeByte_abandons hr hback hno
    rcases List.mem_cons.mp hc with rfl | hc
    · rw [exec_answerAbandoned ha hback, htake]
    · rw [List.mem_singleton.mp hc]
      exact congrArg Host.Outcome.next htake
  · have hh : s.hostDriverEnabled = false := (State.hostDriverEnabled_of ha).trans hs
    have hback := State.readsBack_idle hh 0xC3#8 false
    rw [exec_answerAbandoned ha hback, State.takeByte_good hback,
      State.goodByte_mark hr ((s.lineQuiet_iff).mpr ⟨hh, hq⟩)]
  · refine ⟨congrArg Host.Outcome.next (State.takeByte_readBack ha hs hb), ?_⟩
    change Host.Outcome.next (if s.answer = none ∨ s.readsBack b false then s else s.takeByte b false) = _
    rw [if_pos (.inr ((s.readsBack_iff b false).mpr ⟨rfl, a, ha, hs, hb⟩))]

end Sys2Proof.Machine
end

section
/-! SUPPORT. The invariants of the host line and of the key maps (O60), and a millisecond on an empty queue (O3). -/

namespace Sys2Proof.Machine

/-! ### The key maps (R76, R185) -/

theorem handleClassSet_keyMaps (p : List Byte) (s : State) : (handleClassSet p s).2.keyMaps = s.keyMaps := by
  unfold handleClassSet
  split
  · split
    · split
      · rfl
      · unfold State.setClass
        split <;> rfl
    · rfl
  · rfl

theorem handleAttentionClear_keyMaps (p : List Byte) (s : State) : (handleAttentionClear p s).2.keyMaps = s.keyMaps := by
  unfold handleAttentionClear
  repeat' split
  all_goals rfl

theorem handleAttentionMask_keyMaps (p : List Byte) (s : State) : (handleAttentionMask p s).2.keyMaps = s.keyMaps := by
  unfold handleAttentionMask
  split <;> rfl

/-- A store put in place leaves the key maps. -/
theorem setStore_keyMaps_eq (s : State) (st : Store) {r : Reply} : (r, s.setStore st).2.keyMaps = s.keyMaps :=
  State.setStore_keyMaps s st

theorem handleLoadOpen_keyMaps (p : List Byte) (s : State) : (handleLoadOpen p s).2.keyMaps = s.keyMaps := by
  unfold handleLoadOpen
  split
  · rfl
  · split
    · rfl
    · split
      · split
        · rfl
        · split
          · rfl
          · exact setStore_keyMaps_eq s _
      · rfl

theorem handleLoadData_keyMaps (p : List Byte) (s : State) : (handleLoadData p s).2.keyMaps = s.keyMaps := by
  unfold handleLoadData
  split
  · rfl
  · split
    · rfl
    · split
      · rfl
      · split
        · rfl
        · split
          · rfl
          · split
            · rfl
            · split
              · rfl
              · exact setStore_keyMaps_eq s _

theorem handleLoadClose_keyMaps (p : List Byte) (s : State) : (handleLoadClose p s).2.keyMaps = s.keyMaps := by
  unfold handleLoadClose
  split
  · rfl
  · split
    · rfl
    · split
      · rfl
      · split
        · split
          · exact setStore_keyMaps_eq s _
          · exact setStore_keyMaps_eq s _
        · rfl

theorem handleLoadAbandon_keyMaps (p : List Byte) (s : State) : (handleLoadAbandon p s).2.keyMaps = s.keyMaps := by
  unfold handleLoadAbandon
  split
  · rfl
  · split
    · exact setStore_keyMaps_eq s _
    · rfl

theorem handleEraseSlots_keyMaps (p : List Byte) (s : State) : (handleEraseSlots p s).2.keyMaps = s.keyMaps := by
  unfold handleEraseSlots
  dsimp only
  split
  · rfl
  · split
    · rfl
    · split
      · split
        · rfl
        · split
          · rfl
          · split
            · exact State.raiseCtl_keyMaps _ _
            · exact setStore_keyMaps_eq s _
      · rfl

theorem handleProtect_keyMaps (p : List Byte) (s : State) : (handleProtect p s).2.keyMaps = s.keyMaps := by
  unfold handleProtect
  split
  · rfl
  · split
    · split
      · split
        · rfl
        · split
          · rfl
          · exact setStore_keyMaps_eq s _
      · rfl
    · rfl

/-- Only KEYMAP SET changes the key maps. -/
theorem State.handle_keyMaps {s : State} {k : DownKind} (hk : k ≠ .keymapSet) (st : Byte) (p : List Byte) :
    (s.handle k st p).2.keyMaps = s.keyMaps := by
  have controller {handled : Reply × State} (h : handled.2.keyMaps = s.keyMaps) :
      (toController st s handled).2.keyMaps = s.keyMaps :=
    toController_keeps (P := fun t => t.keyMaps = s.keyMaps) rfl h
  cases k
  case keymapSet => exact absurd rfl hk
  case write => exact (s.handle_stationStep (k := .write) rfl st p).keyMaps
  case stationSetup => exact (s.handle_stationStep (k := .stationSetup) rfl st p).keyMaps
  case broadcastMessage => exact (s.handle_stationStep (k := .broadcastMessage) rfl st p).keyMaps
  case poll =>
    have hpoll : s.handle .poll st p =
        if st = 0x00#8 then handlePoll none p s else toStation st s fun n => handlePoll (some n) p s := rfl
    rw [hpoll]
    split
    · rw [handlePoll_state]
    · exact toStation_keeps (P := fun t => t.keyMaps = s.keyMaps) rfl fun n => by rw [handlePoll_state]
  case readForm =>
    exact toStation_keeps (P := fun t => t.keyMaps = s.keyMaps) rfl fun n => by rw [handleReadForm_state]
  case status => exact controller (by rw [handleStatus_state])
  case stationRead => exact controller (by rw [handleStationRead_state])
  case classSet => exact controller (handleClassSet_keyMaps p s)
  case attentionRead => exact controller (by rw [handleAttentionRead_state])
  case attentionClear => exact controller (handleAttentionClear_keyMaps p s)
  case attentionMask => exact controller (handleAttentionMask_keyMaps p s)
  case countersRead => exact controller (by rw [handleCountersRead_state])
  case restart => exact controller (by rw [handleRestart_state])
  case directoryRead => exact controller (by rw [handleDirectoryRead_state])
  case loadOpen => exact controller (handleLoadOpen_keyMaps p s)
  case loadData => exact controller (handleLoadData_keyMaps p s)
  case loadClose => exact controller (handleLoadClose_keyMaps p s)
  case loadAbandon => exact controller (handleLoadAbandon_keyMaps p s)
  case eraseSlots => exact controller (handleEraseSlots_keyMaps p s)
  case protect => exact controller (handleProtect_keyMaps p s)

/-- R185: a run of entries of maps 1..3 is replaced. -/
theorem handleKeymapSet_keyMapsSound {s : State} (h : s.KeyMapsSound) (p : List Byte) :
    (handleKeymapSet p s).2.KeyMapsSound := by
  unfold handleKeymapSet
  split
  · rename_i m plane first count entries
    split
    · rename_i hlen
      split
      · exact h
      · rename_i hm
        split
        · exact h
        · rename_i hplane
          split
          · exact h
          · rename_i hrun
            refine ⟨Memory.wf_writeList _ _ _ h.1, fun c hc => ?_⟩
            rcases Memory.mem_writeList hc with hc | ⟨hlow, hhigh, -⟩
            · exact h.2 c hc
            · unfold mapAddress at hlow hhigh
              have : (m.toNat * 4 + plane.toNat) * 128 + first.toNat ≤ 2047 - count.toNat + 1 := by omega
              omega
    · exact h
  · exact h

theorem State.handle_keyMapsSound {s : State} (h : s.KeyMapsSound) (k : DownKind) (st : Byte) (p : List Byte) :
    (s.handle k st p).2.KeyMapsSound := by
  by_cases hk : k = .keymapSet
  · subst hk
    exact toController_keeps (P := fun t => t.KeyMapsSound) h (handleKeymapSet_keyMapsSound h p)
  · unfold State.KeyMapsSound
    rw [State.handle_keyMaps hk]
    exact h

theorem State.Runs.keyMapsSound {s t : State} (hs : s.KeyMapsSound) (h : s.Runs t) : t.KeyMapsSound := by
  have same {t : State} (h : t.keyMaps = s.keyMaps) : t.KeyMapsSound := by
    unfold State.KeyMapsSound
    rw [h]
    exact hs
  have stored {t : State} (h : s.StoreStep t) : t.KeyMapsSound := same (by rw [h])
  cases h with
  | line h => exact same h.keyMaps
  | @handled u h ha k st p hk => exact State.handle_keyMapsSound (same h.keyMaps) k st p
  | @reset u h a r => exact ⟨Memory.wf_nil, fun c hc => (nomatch hc)⟩
  | @released a n ha hk hn => exact same (State.StationStep.completeRelease s.byteSeen n).keyMaps
  | scanned => exact stored s.scanComplete_storeStep
  | row success => exact stored (s.rowComplete_storeStep success)
  | erased success => exact stored (s.eraseComplete_storeStep success)
  | control success => exact stored (s.controlComplete_storeStep success)
  | link n op => exact same (op.stationStep s n).keyMaps

/-! ### The host line (R167 to R173) -/

/-- The line rests on the unit address, the quiet timer, the answer and the receiver alone. -/
theorem State.LineSound.of_same {s t : State} (h : s.LineSound) (hu : t.unitAddr = s.unitAddr)
    (hq : t.quietLeft = s.quietLeft) (ha : t.answer = s.answer) (hr : t.receiver = s.receiver) : t.LineSound := by
  unfold State.LineSound
  rw [hu, hq, ha, hr]
  exact h

/-- A line with no answer in flight and no frame being received. -/
theorem State.LineSound.idle {s : State} (hu : 1 ≤ s.unitAddr.toNat ∧ s.unitAddr.toNat ≤ 31) (hq : s.quietLeft ≤ 2)
    (ha : s.answer = none) (hr : s.receiver = .hunting) : s.LineSound := by
  refine ⟨hu, hq, fun a hx => ?_, fun p hp => ?_⟩
  · cases ha.symm.trans hx
  · rw [hr] at hp
    cases hp

theorem State.LineSound.byteSeen {s : State} (h : s.LineSound) : s.byteSeen.LineSound := by
  obtain ⟨hu, -, -, hr⟩ := h
  exact ⟨hu, Nat.le_refl 2, fun a ha => (nomatch ha), hr⟩

/-- The line while the bytes of a frame come in. -/
theorem State.LineSound.inFrame {s : State} (h : s.LineSound) (ha : s.answer = none) {bytes : List Byte} {left : Nat}
    (hleft : 1 ≤ left ∧ left ≤ 20) (hlen : ∀ len ∈ lengthField bytes, len ≤ 2048 ∧ bytes.length < len + 7) :
    ({ s with receiver := .inFrame bytes left } : State).LineSound := by
  obtain ⟨hu, hq, -, -⟩ := h
  refine ⟨hu, hq, fun a hx => ?_, fun p hp => ?_⟩
  · cases ha.symm.trans hx
  · cases hp
    exact ⟨hleft, hlen⟩

theorem State.LineSound.hunt {s : State} (h : s.LineSound) : s.hunt.LineSound := by
  obtain ⟨hu, hq, ha, -⟩ := h
  exact ⟨hu, hq, fun a hx => ⟨rfl, (ha a hx).2⟩, fun p hp => (nomatch hp)⟩

/-- R171: an answer composed while HUNTING. -/
theorem State.LineSound.respond {s : State} (h : s.LineSound) (hr : s.receiver = .hunting) (st : Byte) (r : Reply) :
    (s.respond st r).LineSound := by
  obtain ⟨hu, hq, -, hp⟩ := h
  refine ⟨hu, hq, fun a ha => ?_, hp⟩
  cases ha
  exact ⟨hr, rfl, fun hs => (nomatch hs), fun _ => rfl, Nat.zero_le _⟩

theorem State.handle_line (s : State) (k : DownKind) (st : Byte) (p : List Byte) :
    (s.handle k st p).2.unitAddr = s.unitAddr ∧ (s.handle k st p).2.quietLeft = s.quietLeft ∧
      (s.handle k st p).2.answer = s.answer ∧ (s.handle k st p).2.receiver = s.receiver := by
  cases hk : k.changesStations with
  | true =>
    have h := s.handle_stationStep hk st p
    exact ⟨h.unitAddr, h.quietLeft, h.answer, h.receiver⟩
  | false =>
    rw [s.handle_controlStep hk st p]
    exact ⟨rfl, rfl, rfl, rfl⟩

theorem State.LineSound.answerFrame {s : State} (h : s.LineSound) (hr : s.receiver = .hunting) (kind st : Byte)
    (p : List Byte) : (s.answerFrame kind st p).LineSound := by
  have handled {t : State} (hsame : t.unitAddr = s.unitAddr ∧ t.quietLeft = s.quietLeft ∧ t.answer = s.answer ∧
      t.receiver = s.receiver) (r : Reply) : (t.respond st r).LineSound := by
    obtain ⟨hu, hq, ha, hr'⟩ := hsame
    exact State.LineSound.respond (h.of_same hu hq ha hr') (hr'.trans hr) st r
  unfold State.answerFrame State.dispatch
  split
  · exact handled ⟨rfl, rfl, rfl, rfl⟩ _
  · split
    · exact handled ⟨rfl, rfl, rfl, rfl⟩ _
    · exact handled (s.handle_line _ st p) _

theorem State.LineSound.wholeFrame {s : State} (h : s.LineSound) (body check : List Byte) :
    (s.wholeFrame body check).LineSound := by
  unfold State.wholeFrame
  split
  · split
    · exact h.hunt
    · split
      · exact State.LineSound.answerFrame h.hunt rfl _ _ _
      · exact State.LineSound.respond (s := { s.hunt with checkFails := s.hunt.checkFails + 1 }) h.hunt rfl _ _
  · exact h.hunt

theorem State.LineSound.frameBytes {s : State} (h : s.LineSound) (ha : s.answer = none) (bytes : List Byte) :
    (s.frameBytes bytes).LineSound := by
  unfold State.frameBytes
  split
  · rename_i hno
    exact State.LineSound.inFrame h ha ⟨by decide, by decide⟩ fun len hl => by rw [hno] at hl; cases hl
  · rename_i len hlen
    split
    · exact h.hunt
    · rename_i hmax
      split
      · rename_i hshort
        refine State.LineSound.inFrame h ha ⟨by decide, by decide⟩ fun l hl => ?_
        rw [hlen] at hl
        cases hl
        exact ⟨Nat.not_lt.mp hmax, hshort⟩
      · exact h.wholeFrame _ _

theorem State.LineSound.abortingByte {s : State} (h : s.LineSound) : s.abortingByte.LineSound := by
  unfold State.abortingByte
  split
  · exact h.byteSeen
  · exact State.LineSound.hunt (s := s.byteSeen) h.byteSeen

/-- R172: the byte being sent, read back. -/
theorem State.LineSound.advanceAnswer {s : State} (h : s.LineSound) {b : Byte} {badStop : Bool}
    (hb : s.readsBack b badStop = true) : s.advanceAnswer.LineSound := by
  obtain ⟨hu, -, ha, hr⟩ := h
  obtain ⟨-, a, hx, hsend, hbyte⟩ := (s.readsBack_iff b badStop).mp hb
  obtain ⟨hhunt, hunit, -, -, -⟩ := ha a hx
  refine ⟨hu, Nat.le_refl 2, fun y hy => ?_, hr⟩
  obtain ⟨x, hx', rfl⟩ := Option.map_eq_some_iff.mp hy
  obtain rfl := Option.some.inj (hx.symm.trans hx')
  refine ⟨hhunt, hunit, fun _ => rfl, fun hno => ?_, ?_⟩
  · cases hsend.symm.trans hno
  · exact Nat.succ_le_of_lt (List.getElem?_eq_some_iff.mp hbyte).1

theorem State.LineSound.takeByte {s : State} (h : s.LineSound) (b : Byte) (badStop : Bool) :
    (s.takeByte b badStop).LineSound := by
  unfold State.takeByte
  split
  · rename_i hb
    exact h.advanceAnswer hb
  · split
    · exact h.abortingByte
    · unfold State.goodByte
      split
      · split
        · exact State.LineSound.inFrame h.byteSeen rfl ⟨by decide, by decide⟩ fun len hl => (nomatch hl)
        · exact h.byteSeen
      · exact State.LineSound.frameBytes h.byteSeen rfl _

theorem State.LineSound.takeFrame {s : State} (h : s.LineSound) (kind st : Byte) (p : List Byte) :
    (s.takeFrame kind st p).LineSound := by
  have hseen : s.byteSeen.hunt.LineSound := State.LineSound.hunt h.byteSeen
  unfold State.takeFrame State.takeWhole
  split
  · exact hseen
  · split
    · exact State.LineSound.hunt hseen
    · exact State.LineSound.answerFrame hseen rfl kind st p

/-- R169: while IN FRAME no answer is in flight. -/
theorem State.LineSound.gapTimeout {s : State} (h : s.LineSound) : s.gapTimeout.LineSound := by
  unfold State.gapTimeout
  split
  · exact h
  · rename_i bytes left hr
    obtain ⟨hu, -, ha, -⟩ := h
    refine State.LineSound.idle hu (Nat.zero_le _) ?_ rfl
    cases hx : s.answer with
    | none => exact hx
    | some a => cases hr.symm.trans (ha a hx).1

theorem State.LineSound.startSending {s : State} (h : s.LineSound) : s.startSending.LineSound := by
  unfold State.startSending
  split
  · exact h
  · rename_i a ha
    split
    · exact h
    · obtain ⟨hu, -, hans, hr⟩ := h
      obtain ⟨hhunt, hunit, -, -, hback⟩ := hans a ha
      refine ⟨hu, Nat.le_refl 2, fun x hx => ?_, hr⟩
      cases hx
      exact ⟨hhunt, hunit, fun _ => rfl, fun hno => (nomatch hno), hback⟩

/-- R167: the quiet timer changes while no answer is being sent. -/
theorem State.LineSound.quiet {s : State} (h : s.LineSound) (hh : s.hostDriverEnabled = false) {q : Nat} (hq : q ≤ 2) :
    ({ s with quietLeft := q } : State).LineSound := by
  obtain ⟨hu, -, ha, hr⟩ := h
  refine ⟨hu, hq, fun a hx => ?_, hr⟩
  obtain ⟨hhunt, hunit, -, hpend, hback⟩ := ha a hx
  refine ⟨hhunt, hunit, fun hs => ?_, hpend, hback⟩
  cases ((State.hostDriverEnabled_of hx).symm.trans hh).symm.trans hs

theorem strapAddress_range (unit : BitVec 5) : 1 ≤ (strapAddress unit).toNat ∧ (strapAddress unit).toNat ≤ 31 := by
  rw [strapAddress_toNat]
  split
  · decide
  · rename_i hne
    have := unit.isLt
    have : unit.toNat ≠ 0 := fun hc => hne (BitVec.eq_of_toNat_eq hc)
    omega

theorem State.LineSound.completeAnswer {s : State} (h : s.LineSound) : s.completeAnswer.LineSound := by
  unfold State.completeAnswer
  split
  · exact h
  · split
    · unfold State.handOn
      split
      · split
        · rename_i n _
          have hstep := State.StationStep.completeRelease s.byteSeen n
          exact h.byteSeen.of_same hstep.unitAddr hstep.quietLeft hstep.answer hstep.receiver
        · exact h.byteSeen
      · split
        · exact State.LineSound.idle h.1 (Nat.le_refl 2) rfl rfl
        · exact h.byteSeen
    · exact h

theorem State.StationStep.lineSound {s t : State} (h : s.StationStep t) (hs : s.LineSound) : t.LineSound :=
  hs.of_same h.unitAddr h.quietLeft h.answer h.receiver

theorem State.StoreStep.lineSound {s t : State} (h : s.StoreStep t) (hs : s.LineSound) : t.LineSound :=
  hs.of_same (by rw [h]) (by rw [h]) (by rw [h]) (by rw [h])

theorem exec_lineSound {c : Instr} {s t : State} (hs : s.LineSound) (h : exec c s = .next t) : t.LineSound := by
  have received {k st : Byte} {p : List Byte} (h : Host.Outcome.next (s.takeFrame k st p) =
      (.next t : Host.Outcome State Fault Refusal)) : t.LineSound := by
    cases h
    exact hs.takeFrame k st p
  have linked {n : StationIx} {op : LinkOp} (h : Host.Outcome.next (op.apply s n) =
      (.next t : Host.Outcome State Fault Refusal)) : t.LineSound := by
    cases h
    exact (op.stationStep s n).lineSound hs
  have hseen : s.byteSeen.hunt.LineSound := State.LineSound.hunt hs.byteSeen
  cases c
  case powerOnReset unit rate =>
    cases h
    exact State.LineSound.idle (strapAddress_range unit) (Nat.le_refl 2) rfl rfl
  case mark => cases h; exact hs.takeByte _ _
  case quietTimerExpiry =>
    cases h
    split
    · exact hs
    · rename_i hh
      exact hs.quiet (by simpa using hh) (Nat.zero_le _)
  case frameAbort =>
    change execFrameAbort s = .next t at h
    unfold execFrameAbort at h
    split at h <;> cases h
    · exact hs
    · exact hs.abortingByte
  case frameGapTimeout => cases h; exact hs.gapTimeout
  case checkFail st =>
    cases h
    unfold State.takeWhole
    split
    · exact hseen
    · exact State.LineSound.respond (s := { s.byteSeen.hunt with checkFails := s.checkFails + 1 }) hseen rfl _ _
  case unknownKind => exact received h
  case answerSendStart => cases h; exact hs.startSending
  case answerAbandoned b badStop =>
    cases h
    split
    · exact hs
    · exact hs.takeByte b badStop
  case answerComplete => cases h; exact hs.completeAnswer
  case startUpScanComplete => cases h; exact s.scanComplete_storeStep.lineSound hs
  case rowProgramComplete success => cases h; exact (s.rowComplete_storeStep success).lineSound hs
  case slotEraseComplete success => cases h; exact (s.eraseComplete_storeStep success).lineSound hs
  case controlUpdateComplete success => cases h; exact (s.controlComplete_storeStep success).lineSound hs
  case keyDown n code time => exact linked (op := .key code true time) h
  case keyUp n code time => exact linked (op := .key code false time) h
  case scanch n c => exact linked (op := .scan c) h
  case pause n => exact linked (op := .pause true) h
  case resume n => exact linked (op := .pause false) h
  case present n => exact linked (op := .present) h
  case linkByteTimeout n => exact linked (op := .dropRx) h
  case silenceTimerExpiry n => exact linked (op := .silence) h
  case repeatTimerExpiry n => exact linked (op := .rep) h
  case gapTimerExpiry n => exact linked (op := .gap) h
  case probeTimerExpiry n => exact linked (op := .probe) h
  case startMessage n => exact linked (op := .start) h
  case messageComplete n => exact linked (op := .complete) h
  case frameForOtherUnit =>
    cases h
    unfold State.takeWhole
    split <;> exact hseen
  case hostLineByte b badStop => cases h; exact hs.takeByte b badStop
  case linkByte n b parityOk time => cases h; exact (State.StationStep.linkByte s n b parityOk time).lineSound hs
  all_goals exact received h

/-- R167, R169: a millisecond on the line. -/
theorem State.LineSound.countLine {s : State} (h : s.LineSound) : s.countQuiet.countGap.LineSound := by
  have hquiet : s.countQuiet.LineSound := by
    unfold State.countQuiet
    split
    · exact h
    · rename_i hh
      obtain ⟨-, hq, -⟩ := id h
      exact h.quiet (by simpa using hh) (by omega)
  unfold State.countGap
  split
  · exact hquiet
  · rename_i bytes left hr
    split
    · exact hquiet.gapTimeout
    · rename_i hleft
      obtain ⟨-, -, ha, hp⟩ := id hquiet
      obtain ⟨hrange, hlen⟩ := hp (bytes, left) (by rw [hr]; rfl)
      refine State.LineSound.inFrame hquiet ?_ (by dsimp only at hrange; omega) hlen
      cases hx : s.countQuiet.answer with
      | none => rfl
      | some a => cases hr.symm.trans (ha a hx).1

theorem State.LineSound.tick {s : State} (h : s.LineSound) : s.tick.LineSound :=
  State.expireDue_keeps (I := State.LineSound) (s := { s.countQuiet.countGap.countStations with
      freeCount := s.countQuiet.countGap.countStations.freeCount + s.countQuiet.countGap.countStations.due.length })
    (fun s n op hs => (op.stationStep s n).lineSound hs) h.countLine _

/-- Settles O60: the key maps by the kinds of change a step can make, the line command by command. -/
theorem stepKeepsLineAndKeyMapsSound : Obligations.StepKeepsLineAndKeyMapsSound := by
  refine ⟨fun s t hs h => ?_, fun s t hs h => ?_⟩
  · exact step_keeps (I := fun s => s.KeyMapsSound) (fun s p k hs => hs) (fun s t hs h => h.keyMapsSound hs)
      (fun s hs => hs) hs h
  · unfold step at h
    split at h
    · cases h
      exact hs.tick
    · rename_i c rest _
      exact exec_lineSound (s := { s with pending := rest }) hs h

/-! ### A millisecond on an empty queue (log 5) -/

theorem Station.timeLeft_countDown (st : Station) (k : Timer) :
    st.countDown.timeLeft k = (st.timeLeft k).map (· - 1) := by
  cases k <;> simp only [Station.timeLeft, Station.countDown, Option.map_map] <;> rfl

theorem map_pred_eq_zero {o : Option Nat} (h0 : o ≠ some 0) (h1 : o ≠ some 1) : o.map (· - 1) ≠ some 0 := by
  intro hc
  obtain ⟨x, hx, hz⟩ := Option.map_eq_some_iff.mp hc
  have : x = 0 ∨ x = 1 := by omega
  rcases this with rfl | rfl
  · exact h0 hx
  · exact h1 hx

/-- The state in which a millisecond has been counted and the expiries have not yet been taken. -/
def State.counted (s : State) : State :=
  { s with quietLeft := s.quietLeft - 1, stations := s.stations.map Station.countDown }

theorem State.countLine_idle {s : State} (hr : s.receiver = .hunting) (hh : s.hostDriverEnabled = false) :
    s.countQuiet.countGap.countStations = s.counted := by
  have hquiet : s.countQuiet = { s with quietLeft := s.quietLeft - 1 } := by
    unfold State.countQuiet
    rw [hh]
    rfl
  have hgap : s.countQuiet.countGap = s.countQuiet := by
    have hr' : s.countQuiet.receiver = .hunting := by rw [hquiet]; exact hr
    unfold State.countGap
    rw [hr']
  rw [hgap, hquiet]
  rfl

theorem State.station_counted (s : State) (n : StationIx) : s.counted.station n = (s.station n).countDown :=
  s.station_countStations n

theorem State.step_idle {s : State} (hp : s.pending = []) (hr : s.receiver = .hunting)
    (hh : s.hostDriverEnabled = false) : step s = .next s.counted.takeExpiries := by
  unfold step
  rw [hp, State.tick, State.countLine_idle hr hh]

/-- The timers of every station. -/
def allTimers : List (StationIx × Timer) :=
  (List.finRange 12).flatMap fun n => [(n, Timer.silence), (n, .probe), (n, .rep), (n, .gap), (n, .message)]

theorem count_allTimers (n : StationIx) (k : Timer) : allTimers.count (n, k) = 1 := by
  revert n
  cases k <;> decide

theorem State.due_eq (s : State) : s.due = allTimers.filter fun e => (s.station e.1).timeLeft e.2 == some 0 := rfl

theorem State.due_none {s : State} (h : ∀ n k, (s.station n).timeLeft k ≠ some 0) : s.due = [] := by
  rw [State.due_eq, List.filter_eq_nil_iff]
  intro e _
  simpa using h e.1 e.2

theorem State.due_one {s : State} {n : StationIx} {k : Timer} (hn : (s.station n).timeLeft k = some 0)
    (h : ∀ m j, (m ≠ n ∨ j ≠ k) → (s.station m).timeLeft j ≠ some 0) : s.due = [(n, k)] := by
  have hp : (fun e : StationIx × Timer => (s.station e.1).timeLeft e.2 == some 0) = fun e => e == (n, k) := by
    funext e
    by_cases he : e = (n, k)
    · rw [he]
      simp [hn]
    · have hne : e.1 ≠ n ∨ e.2 ≠ k := by
        by_cases h1 : e.1 = n
        · exact .inr fun h2 => he (Prod.ext h1 h2)
        · exact .inl h1
      simp [h e.1 e.2 hne, he]
  rw [State.due_eq, hp, List.filter_beq, count_allTimers]
  rfl

theorem inFreeOrder_one (k : Nat) (e : StationIx × Timer) : inFreeOrder k [e] = [e] := by
  simp [inFreeOrder, Nat.mod_one]

theorem State.silenceExpiry_attached {s : State} {n : StationIx} (hl : (s.station n).link = .attached)
    (hs : (s.station n).dr.silence.isSome = true) :
    s.silenceExpiry n = (s.setStation n (s.station n).detach).raise n causeDetached := by
  unfold State.silenceExpiry
  rw [if_pos ⟨hl, hs⟩]
  rfl

/-- Settles O3: with nothing due the timers count; a silence timer due alone detaches its link. -/
theorem emptyQueueStepPassesOneMillisecond : Obligations.EmptyQueueStepPassesOneMillisecond := by
  intro s hp hr hh
  have hcounted (n : StationIx) (k : Timer) (h : (s.station n).timeLeft k ≠ some 0 ∧ (s.station n).timeLeft k ≠ some 1) :
      (s.counted.station n).timeLeft k ≠ some 0 := by
    rw [State.station_counted, Station.timeLeft_countDown]
    exact map_pred_eq_zero h.1 h.2
  refine ⟨fun hnone => ?_, fun n hl hs hothers => ?_⟩
  · rw [State.step_idle hp hr hh, State.takeExpiries, State.due_none fun n k => hcounted n k (hnone n k)]
    rfl
  · have hzero : (s.counted.station n).timeLeft .silence = some 0 := by
      rw [State.station_counted, Station.timeLeft_countDown, Station.timeLeft, hs]
      rfl
    have hdue : s.counted.due = [(n, .silence)] :=
      State.due_one hzero fun m k hne => hcounted m k (hothers m k hne)
    have hstation : s.counted.station n = (s.station n).countDown := s.station_counted n
    have hexp : s.counted.takeExpiries =
        ({ s.counted with freeCount := s.freeCount + 1 } : State).silenceExpiry n := by
      rw [State.takeExpiries, hdue, inFreeOrder_one]
      exact if_pos hzero
    have hdetach := State.silenceExpiry_attached (s := { s.counted with freeCount := s.freeCount + 1 }) (n := n)
      (by change (s.counted.station n).link = _; rw [hstation]; exact hl)
      (by change (s.counted.station n).dr.silence.isSome = _; rw [hstation]; simp [Station.countDown, hs])
    have hst : ({ s.counted with freeCount := s.freeCount + 1 } : State).station n = (s.station n).countDown := hstation
    rw [hst] at hdetach
    refine ⟨_, State.step_idle hp hr hh, ?_⟩
    rw [hexp, hdetach]
    have hread : ((({ s.counted with freeCount := s.freeCount + 1 } : State).setStation n
        (s.station n).countDown.detach).raise n causeDetached).station n = (s.station n).countDown.detach :=
      State.station_setStation_same _ n _
    refine ⟨rfl, ?_, ?_, ?_, ?_, fun m hm => ?_⟩
    · rw [hread]; rfl
    · rw [hread]; rfl
    · rw [hread]; rfl
    · rw [hread]; rfl
    · exact (State.station_setStation_ne _ _ hm).trans (s.station_counted m)

end Sys2Proof.Machine
end

section
/-! SUPPORT. Whole frames byte by byte (O9, O10), and the links of the stations (O51 to O56). -/

namespace Sys2Proof.Machine

/-! ### A whole frame, byte by byte (R168, R170) -/

/-- The line while a frame is being received: no answer in flight, the quiet timer just restarted. -/
def State.receiving (s : State) (bytes : List Byte) : State :=
  { s with answer := none, quietLeft := 2, receiver := .inFrame bytes 20 }

theorem lengthField_of_append {a b : List Byte} {len : Nat} (h : lengthField (a ++ b) = some len) (ha : 5 ≤ a.length) :
    lengthField a = some len := by
  match a, ha with
  | _ :: _ :: _ :: _ :: _ :: _, _ => exact h

theorem exec_byte_receiving (s : State) (bytes : List Byte) (b : Byte) :
    exec (.hostLineByte b false) (s.receiving bytes) = .next ((s.receiving bytes).frameBytes (bytes ++ [b])) :=
  congrArg Host.Outcome.next
    ((State.takeByte_good (s := s.receiving bytes) (State.readsBack_idle rfl b false)).trans
      (State.goodByte_inFrame (s := s.receiving bytes) rfl))

theorem runAll_cons {c : Instr} {s t : State} (h : exec c s = .next t) (rest : List Instr) :
    runAll (c :: rest) s = runAll rest t := by
  conv_lhs => unfold runAll
  rw [h]

/-- R168: a byte short of the whole frame joins it. -/
theorem State.frameBytes_receiving (s : State) {bytes : List Byte} (b : Byte) {rest : List Byte} {len : Nat}
    (hfield : lengthField (bytes ++ b :: rest) = some len) (hmax : len ≤ 2048)
    (hlen : (bytes ++ b :: rest).length = len + 7) (hrest : rest ≠ []) :
    (s.receiving bytes).frameBytes (bytes ++ [b]) = s.receiving (bytes ++ [b]) := by
  have happend : bytes ++ b :: rest = (bytes ++ [b]) ++ rest := by rw [List.append_assoc]; rfl
  have hpos := List.length_pos_iff.mpr hrest
  rw [happend] at hfield
  rw [happend, List.length_append] at hlen
  by_cases hshort : (bytes ++ [b]).length < 5
  · exact State.frameBytes_short _ hshort
  · have hfits : ¬ maxPayload < len := Nat.not_lt.mpr hmax
    unfold State.frameBytes
    rw [lengthField_of_append hfield (Nat.not_lt.mp hshort)]
    dsimp only
    rw [if_neg hfits, if_pos (by omega)]
    rfl

/-- R168, R170: from the bytes received so far, the rest of a frame completes it. -/
theorem runAll_receiving (s : State) {len : Nat} (hmax : len ≤ 2048) (rest : List Byte) {bytes : List Byte}
    (hfield : lengthField (bytes ++ rest) = some len) (hlen : (bytes ++ rest).length = len + 7) (hrest : rest ≠ []) :
    ∃ before, runAll (bytesArrive rest) (s.receiving bytes) =
      .next ((s.receiving before).wholeFrame ((bytes ++ rest).take (len + 5)) ((bytes ++ rest).drop (len + 5))) := by
  induction rest generalizing bytes with
  | nil => exact absurd rfl hrest
  | cons b rest ih =>
    have happend : bytes ++ b :: rest = (bytes ++ [b]) ++ rest := by rw [List.append_assoc]; rfl
    have hstep : runAll (bytesArrive (b :: rest)) (s.receiving bytes) =
        runAll (bytesArrive rest) ((s.receiving bytes).frameBytes (bytes ++ [b])) :=
      runAll_cons (exec_byte_receiving s bytes b) _
    cases rest with
    | nil =>
      have hfits : ¬ maxPayload < len := Nat.not_lt.mpr hmax
      refine ⟨bytes, ?_⟩
      rw [hstep]
      unfold State.frameBytes
      rw [hfield]
      dsimp only
      rw [if_neg hfits, if_neg (by rw [hlen]; exact Nat.lt_irrefl _)]
      rfl
    | cons c rest =>
      rw [hstep, State.frameBytes_receiving s b hfield hmax hlen (by simp), happend]
      exact ih (by rw [← happend]; exact hfield) (by rw [← happend]; exact hlen) (by simp)

theorem length_frameBody (unit st kind : Byte) (p : List Byte) : (frameBody unit st kind p).length = p.length + 5 := by
  unfold frameBody bytes2
  simp

/-- R170: a mark on a quiet line and then a frame of any check bytes end as the whole frame. -/
theorem runAll_frame {s : State} (hr : s.receiver = .hunting) (hh : s.hostDriverEnabled = false) (hq : s.quietLeft = 0)
    (unit st kind : Byte) {p : List Byte} (hp : p.length ≤ 2048) (c d : Byte) :
    ∃ before, runAll (.mark :: bytesArrive (frameBody unit st kind p ++ [c, d])) s =
      .next ((s.receiving before).wholeFrame (frameBody unit st kind p) [c, d]) := by
  have hmark : exec .mark s = .next (s.receiving []) := (markNeedsQuiet s hr hh).1 hq
  have hfield : lengthField (frameBody unit st kind p ++ [c, d]) = some p.length :=
    congrArg some (number_bytes2 (n := p.length) (by omega))
  have hbody := length_frameBody unit st kind p
  obtain ⟨before, hrun⟩ := runAll_receiving s hp (frameBody unit st kind p ++ [c, d]) (bytes := []) hfield
    (by simp [hbody]) (by simp)
  refine ⟨before, ?_⟩
  rw [runAll_cons hmark, hrun, List.nil_append, List.take_left' hbody, List.drop_left' hbody]

/-- R170: a whole frame for another unit. -/
theorem State.wholeFrame_foreign (s : State) (bytes : List Byte) {unit st kind : Byte} {p check : List Byte}
    (hu : unit ≠ s.unitAddr) : (s.receiving bytes).wholeFrame (frameBody unit st kind p) check = s.byteSeen.hunt := by
  unfold frameBody bytes2
  exact if_pos hu

/-- R170: a whole frame for this unit, its check good. -/
theorem State.wholeFrame_good (s : State) (bytes : List Byte) {st kind : Byte} {p check : List Byte}
    (hc : (crc (frameBody s.unitAddr st kind p)).toNat = number check) :
    (s.receiving bytes).wholeFrame (frameBody s.unitAddr st kind p) check = s.byteSeen.hunt.answerFrame kind st p := by
  unfold frameBody bytes2 at hc ⊢
  exact (if_neg (fun h => h rfl)).trans (if_pos hc)

/-- R170: a whole frame for this unit, its check bad. -/
theorem State.wholeFrame_damaged (s : State) (bytes : List Byte) {st kind : Byte} {p check : List Byte}
    (hc : (crc (frameBody s.unitAddr st kind p)).toNat ≠ number check) :
    (s.receiving bytes).wholeFrame (frameBody s.unitAddr st kind p) check = s.byteSeen.hunt.failCheck st := by
  unfold frameBody bytes2 at hc ⊢
  exact (if_neg (fun h => h rfl)).trans (if_neg hc)

/-- Settles O9: the bytes of a frame are taken in turn, and the last one dispatches it. -/
theorem frameArrivesByteByByte : Obligations.FrameArrivesByteByByte := by
  intro s st p hr hh hq hp
  have harrives (kind : Byte) : runAll (.mark :: bytesArrive (downFrame s.unitAddr st kind p)) s =
      .next (s.takeFrame kind st p) := by
    obtain ⟨before, hrun⟩ := runAll_frame hr hh hq s.unitAddr st kind hp
      (BitVec.ofNat 8 ((crc (frameBody s.unitAddr st kind p)).toNat / 256))
      (BitVec.ofNat 8 (crc (frameBody s.unitAddr st kind p)).toNat)
    have hcheck : (crc (frameBody s.unitAddr st kind p)).toNat =
        number (bytes2 (crc (frameBody s.unitAddr st kind p)).toNat) :=
      (number_bytes2 (crc (frameBody s.unitAddr st kind p)).isLt).symm
    rw [State.takeFrame_ready hh _ _ hp, ← State.wholeFrame_good s before hcheck]
    exact hrun
  refine ⟨fun kind => harrives kind, fun k => ?_⟩
  rw [exec_command]
  exact harrives k.code

theorem bytes2_number (c d : Byte) : bytes2 (number [c, d]) = [c, d] := by
  have hc := c.isLt
  have hd := d.isLt
  have hn : number [c, d] = c.toNat * 256 + d.toNat := by simp [number]
  rw [hn]
  unfold bytes2
  congr 1
  · refine BitVec.eq_of_toNat_eq ?_
    rw [BitVec.toNat_ofNat]
    omega
  · congr 1
    refine BitVec.eq_of_toNat_eq ?_
    rw [BitVec.toNat_ofNat]
    omega

/-- Settles O10: frames that are not for this unit, or whose check is bad, as commands and byte by byte. -/
theorem foreignAndDamagedFrames : Obligations.ForeignAndDamagedFrames := by
  have hdamaged {s : State} (hh : s.hostDriverEnabled = false) (st : Byte) :
      exec (.checkFail st) s = .next (s.byteSeen.hunt.failCheck st) := by
    change Host.Outcome.next (s.takeWhole fun s => s.failCheck st) = _
    unfold State.takeWhole
    rw [if_neg (by simp [hh])]
  have hforeign (s : State) : exec .frameForOtherUnit s = .next s.byteSeen.hunt := by
    change Host.Outcome.next (s.takeWhole fun s => s) = _
    unfold State.takeWhole
    rw [ite_self]
  refine ⟨fun s => ⟨fun hh st => ?_, hforeign s⟩,
    fun s unit st kind c d p hr hh hq hp => ⟨fun hu => ?_, fun hu hc => ?_⟩⟩
  · rw [hdamaged hh]
    exact congrArg Host.Outcome.next (respond_reply { s with checkFails := s.checkFails + 1 } st .checkFail [] (by decide))
  · obtain ⟨before, hrun⟩ := runAll_frame hr hh hq unit st kind hp c d
    rw [hforeign, hrun, State.wholeFrame_foreign s before hu]
  · subst hu
    obtain ⟨before, hrun⟩ := runAll_frame hr hh hq s.unitAddr st kind hp c d
    have hne : (crc (frameBody s.unitAddr st kind p)).toNat ≠ number [c, d] := fun h => by
      rw [h, bytes2_number] at hc
      exact hc rfl
    rw [hdamaged hh, hrun, State.wholeFrame_damaged s before hne]

/-! ### Terminal messages (R24 to R26, R40) -/

theorem State.signOfLife_attached {s : State} {n : StationIx} (h : (s.station n).link = .attached) :
    s.signOfLife n = s.setStation n (s.station n).heard := by
  unfold State.signOfLife
  rw [h]
  rfl

/-- A DETACHED station as a message leaves it: the link attached, the whole screen stale. -/
def Station.attachedBy (st : Station) : Station :=
  { st with
      link := .attached
      dr := { st.dr with silence := some 2000, paused := false, rx := none, stale := Vector.replicate 25 true
                         cursorStale := true } }

theorem Station.markAll_attached {st : Station} (h : st.link = .attached) :
    st.markAll = { st with dr := { st.dr with stale := Vector.replicate 25 true, cursorStale := true } } := by
  have hstale : (Vector.ofFn fun i : Fin 25 => st.dr.stale[i] || true) = Vector.replicate 25 true := by
    ext i hi
    simp
  have hattached := st.attached_iff.mpr h
  unfold Station.markAll Station.markLines
  rw [if_pos hattached, hstale]
  unfold Station.markCursor
  exact if_pos hattached

theorem Station.dropRx_attach (st : Station) : st.dropRx.attach = st.attachedBy := by
  unfold Station.attach
  rw [Station.markAll_attached rfl]
  rfl

theorem State.signOfLife_detached {s : State} {n : StationIx} (h : (s.station n).link = .detached) :
    s.signOfLife n = (s.setStation n (s.station n).attachedBy).raise n causeAttached := by
  have hattach : s.signOfLife n = (s.onStation n fun st => st.dropRx.attach).raise n causeAttached := by
    unfold State.signOfLife
    rw [h]
  rw [hattach]
  simp only [Station.dropRx_attach]
  rfl

theorem State.onStation_raise (s : State) (n m : StationIx) (bits : Byte) (f : Station → Station) :
    (s.raise n bits).onStation m f = (s.onStation m f).raise n bits := rfl

theorem State.listens_of {s : State} {n : StationIx} {l : LinkState} (h : (s.station n).link = l) (hl : l ≠ .disabled) :
    s.listens n = true := (s.listens_iff n).mpr (h ▸ hl)

theorem State.pauseMessage_heard {s : State} {n : StationIx} (h : s.listens n = true) (f : Bool) :
    s.pauseMessage n f = (s.signOfLife n).onStation n fun st => st.setPaused f := by
  unfold State.pauseMessage
  rw [h]
  rfl

/-- R24: a DISABLED link does not listen. -/
theorem State.listens_disabled {s : State} {n : StationIx} (h : (s.station n).link = .disabled) :
    s.listens n = false := by
  simp [State.listens, h]

/-- Settles O51: by the link state. -/
theorem terminalMessagesAttachAndReload : Obligations.TerminalMessagesAttachAndReload := by
  intro s n
  dsimp only
  have hpresent : exec (.present n) s = .next (s.signOfLife n) := rfl
  have hpause : exec (.pause n) s = .next (s.pauseMessage n true) := rfl
  have hresume : exec (.resume n) s = .next (s.pauseMessage n false) := rfl
  refine ⟨fun hl => ?_, fun hl => ?_, fun hl code ch time c hc => ?_⟩
  · have hlisten := s.listens_of hl (by decide)
    rw [hpresent, hpause, hresume, State.pauseMessage_heard hlisten, State.pauseMessage_heard hlisten,
      State.signOfLife_attached hl, State.onStation_setStation, State.onStation_setStation]
    exact ⟨rfl, rfl, rfl⟩
  · have hlisten := s.listens_of hl (by decide)
    rw [hpresent, hpause, hresume, State.pauseMessage_heard hlisten, State.pauseMessage_heard hlisten,
      State.signOfLife_detached hl, State.onStation_raise, State.onStation_raise, State.onStation_setStation,
      State.onStation_setStation]
    exact ⟨rfl, rfl, rfl⟩
  · have hdeaf := State.listens_disabled hl
    have hsilent : s.signOfLife n = s := by
      unfold State.signOfLife
      rw [hl]
    have hkey (code : Byte) (down : Bool) (time : Nat) : s.keyMessage n code down time = s := by
      unfold State.keyMessage
      rw [hdeaf]
      rfl
    have hscan (c : Byte) : s.scanMessage n c = s := by
      unfold State.scanMessage
      rw [hdeaf]
      rfl
    have hpaused (f : Bool) : s.pauseMessage n f = s := by
      unfold State.pauseMessage
      rw [hdeaf]
      rfl
    have hbyte (b : Byte) (ok : Bool) (time : Nat) : s.linkByte n b ok time = s := by
      unfold State.linkByte
      rw [hdeaf]
      rfl
    simp only [List.mem_cons, List.not_mem_nil, or_false] at hc
    rcases hc with rfl | rfl | rfl | rfl | rfl | rfl | rfl
    · exact congrArg Host.Outcome.next hsilent
    · exact congrArg Host.Outcome.next (hpaused true)
    · exact congrArg Host.Outcome.next (hpaused false)
    · exact congrArg Host.Outcome.next (hkey _ _ _)
    · exact congrArg Host.Outcome.next (hkey _ _ _)
    · exact congrArg Host.Outcome.next (hscan _)
    · exact congrArg Host.Outcome.next (hbyte _ _ _)

/-! ### Terminal messages byte by byte (R193) -/

/-- R193: a message received leaves no trace of the bytes that made it. -/
theorem State.signOfLife_expect {s : State} {n : StationIx} (hl : (s.station n).link ≠ .disabled) (part : LinkPart) :
    (s.setStation n ((s.station n).expect part)).signOfLife n = s.signOfLife n := by
  have hst := State.station_setStation_same s n ((s.station n).expect part)
  have hlink : ((s.station n).expect part).link = (s.station n).link := rfl
  cases hcase : (s.station n).link with
  | disabled => exact absurd hcase hl
  | detached =>
    rw [State.signOfLife_detached hcase, State.signOfLife_detached (by rw [hst, hlink]; exact hcase), hst,
      State.setStation_setStation]
    rfl
  | attached =>
    rw [State.signOfLife_attached hcase, State.signOfLife_attached (by rw [hst, hlink]; exact hcase), hst,
      State.setStation_setStation]
    rfl

theorem State.dropRx_expect {s : State} {n : StationIx} (hrx : (s.station n).dr.rx = none) (part : LinkPart) :
    (s.setStation n ((s.station n).expect part)).onStation n Station.dropRx = s := by
  have hdrop : ((s.station n).expect part).dropRx = s.station n := by
    unfold Station.expect Station.dropRx
    dsimp only
    rw [← hrx]
  rw [State.onStation_setStation, hdrop, State.setStation_self]

section
variable {s : State} {n : StationIx} (hl : (s.station n).link ≠ .disabled)
include hl

theorem State.listens_expect (part : LinkPart) : (s.setStation n ((s.station n).expect part)).listens n = true := by
  rw [State.listens_iff, State.station_setStation_same]
  exact hl

theorem State.linkByte_lead (hrx : (s.station n).dr.rx = none) (b : Byte) (time : Nat) :
    s.linkByte n b true time = s.leadByte n b := by
  unfold State.linkByte
  rw [(s.listens_iff n).mpr hl, hrx]
  rfl

theorem State.linkByte_next (part : LinkPart) (b : Byte) (time : Nat) :
    (s.setStation n ((s.station n).expect part)).linkByte n b true time =
      (s.setStation n ((s.station n).expect part)).nextByte n part b time := by
  unfold State.linkByte
  rw [State.listens_expect hl, State.station_setStation_same]
  rfl

theorem State.keyMessage_expect (part : LinkPart) (code : Byte) (hcode : 1 ≤ code.toNat ∧ code.toNat ≤ 127)
    (down : Bool) (time : Nat) :
    (s.setStation n ((s.station n).expect part)).keyMessage n code down time = s.keyMessage n code down time := by
  unfold State.keyMessage
  rw [State.listens_expect hl, (s.listens_iff n).mpr hl, State.signOfLife_expect hl]
  simp [hcode]

theorem State.scanMessage_expect (part : LinkPart) (c : Byte) :
    (s.setStation n ((s.station n).expect part)).scanMessage n c = s.scanMessage n c := by
  unfold State.scanMessage
  rw [State.listens_expect hl, (s.listens_iff n).mpr hl, State.signOfLife_expect hl]
  rfl

end

theorem State.expect_expect (s : State) (n : StationIx) (a b : LinkPart) :
    ((s.setStation n ((s.station n).expect a)).onStation n fun st => st.expect b) =
      s.setStation n ((s.station n).expect b) := by
  rw [State.onStation_setStation]
  rfl

theorem runAll_two (a b : Instr) {s t : State} (h : exec a s = .next t) : runAll [a, b] s = exec b t := by
  rw [runAll_cons h]
  unfold runAll
  cases exec b t <;> rfl

/-- Settles O52: the lead byte begins a message, and the last byte is the message. -/
theorem messageArrivesByteByByte : Obligations.MessageArrivesByteByByte := by
  intro s n b time t1 t2 hl hrx
  dsimp only
  have hbyte (t : State) (b : Byte) (ok : Bool) (time : Nat) :
      exec (.linkByte n b ok time) t = .next (t.linkByte n b ok time) := rfl
  have hlead (b : Byte) (t1 : Nat) : exec (.linkByte n b true t1) s = .next (s.leadByte n b) := by
    rw [hbyte, State.linkByte_lead hl hrx]
  have hkey : exec (.linkByte n 0x81#8 true t1) s = .next (s.setStation n ((s.station n).expect .keyLead)) := hlead _ _
  have hscan : exec (.linkByte n 0x82#8 true t1) s = .next (s.setStation n ((s.station n).expect .scanLead)) := hlead _ _
  have hcode (h : 1 ≤ b.toNat ∧ b.toNat ≤ 127) :
      exec (.linkByte n b true t2) (s.setStation n ((s.station n).expect .keyLead)) =
        .next (s.setStation n ((s.station n).expect (.keyCode b))) := by
    rw [hbyte, State.linkByte_next hl]
    unfold State.nextByte
    dsimp only
    rw [if_pos h, State.expect_expect]
  have hthird (h : 1 ≤ b.toNat ∧ b.toNat ≤ 127) (d : Byte) :
      runAll [.linkByte n 0x81#8 true t1, .linkByte n b true t2, .linkByte n d true time] s =
        .next ((s.setStation n ((s.station n).expect (.keyCode b))).nextByte n (.keyCode b) d time) := by
    rw [runAll_cons hkey, runAll_two _ _ (hcode h), hbyte, State.linkByte_next hl]
  refine ⟨fun hlow hhigh => ⟨?_, ?_, fun d hd => ?_⟩, fun hout => ?_, ?_, ?_, ?_, ?_, fun hout => ?_, fun part => ?_, hkey, ?_⟩
  · rw [hthird ⟨hlow, hhigh⟩]
    exact congrArg Host.Outcome.next (State.keyMessage_expect hl _ b ⟨hlow, hhigh⟩ true time)
  · rw [hthird ⟨hlow, hhigh⟩]
    exact congrArg Host.Outcome.next (State.keyMessage_expect hl _ b ⟨hlow, hhigh⟩ false time)
  · rw [hthird ⟨hlow, hhigh⟩]
    unfold State.nextByte
    dsimp only
    split
    · omega
    · omega
    · rw [State.dropRx_expect hrx]
  · rw [runAll_two _ _ hkey, hbyte, State.linkByte_next hl]
    unfold State.nextByte
    dsimp only
    rw [if_neg (by omega), State.dropRx_expect hrx]
  · rw [runAll_two _ _ hscan, hbyte, State.linkByte_next hl]
    exact congrArg Host.Outcome.next (State.scanMessage_expect hl _ b)
  · exact hlead _ _
  · exact hlead _ _
  · exact hlead _ _
  · rw [hlead]
    unfold State.leadByte
    split
    · omega
    · omega
    · omega
    · omega
    · omega
    · rfl
  · have hdrop : ({ s.station n with dr := { (s.station n).dr with rx := some part } } : Station).dropRx = s.station n := by
      unfold Station.dropRx
      dsimp only
      rw [← hrx]
    change Host.Outcome.next (State.onStation _ n Station.dropRx) = _
    rw [State.onStation_setStation, hdrop, State.setStation_self]
  · rw [runAll_two _ _ hscan, hbyte]
    unfold State.linkByte
    rw [State.listens_expect hl]
    exact congrArg Host.Outcome.next (State.dropRx_expect hrx _)

/-! ### Timers of a link (R26, R34, R38, R42) -/

/-- Settles O53: the silence timer of an ATTACHED link detaches it. -/
theorem silenceDetachesLink : Obligations.SilenceDetachesLink := by
  intro s n hl hs
  have hexec : exec (.silenceTimerExpiry n) s = .next (s.silenceExpiry n) := rfl
  rw [hexec, State.silenceExpiry_attached hl (Option.isSome_iff_ne_none.mpr hs)]
  have hprobe : (if (s.station n).dr.inFlight.isSome then some 500 else (s.station n).dr.probe) =
      if (s.station n).dr.inFlight = none then (s.station n).dr.probe else some 500 := by
    cases (s.station n).dr.inFlight <;> rfl
  rw [← hprobe]
  rfl

/-- Settles O54: in ENTRY the repeated action is processed, elsewhere the repeat ends. -/
theorem repeatTimerRepeatsAction : Obligations.RepeatTimerRepeatsAction := by
  intro s n r hr
  have hexec : exec (.repeatTimerExpiry n) s = .next (s.repeatExpiry n) := rfl
  refine ⟨fun hno => ?_, fun hp hed hact => ?_⟩
  · have hnot : ¬ ((s.station n).input = .entry ∧ (s.station n).scan = none) :=
      fun hc => hno.elim (fun h => h hc.1) fun h => h hc.2
    rw [hexec]
    unfold State.repeatExpiry
    rw [hr]
    dsimp only
    rw [if_neg hnot]
    rfl
  · have hmoved : s.repeatExpiry n = s.setStation n
        (Station.moveAction { s.station n with rep := some { r with left := (s.station n).profile.repeatPeriod } }
          s.classes .right) := by
      unfold State.repeatExpiry
      rw [hr]
      dsimp only
      rw [if_pos hp, hact]
      unfold State.process
      dsimp only
      rw [State.onStation_onStation]
      rfl
    have hcarry : Station.moveAction { s.station n with rep := some { r with left := (s.station n).profile.repeatPeriod } }
        s.classes .right =
        Station.carryOut { s.station n with rep := some { r with left := (s.station n).profile.repeatPeriod } }
          (((s.station n).sheet.cursor + 1) % ((s.station n).sheet.rows * 80)) none := by
      unfold Station.moveAction Sheet.target Station.operatorMove
      dsimp only
      have hleave (target : Nat) : (s.station n).sheet.leaving target = none := by
        simp [Sheet.leaving, Sheet.editedField, hed]
      rw [hleave]
      rfl
    rw [hexec, hmoved, hcarry]
    refine ⟨_, rfl, ?_⟩
    conv_lhs => rw [Station.carryOut_eq]
    rw [Station.carryOut_sheet]

/-- Settles O55: by whether a message is in flight. -/
theorem probesAndCompletions : Obligations.ProbesAndCompletions := by
  intro s n
  dsimp only
  have hprobe : exec (.probeTimerExpiry n) s = .next (s.setStation n (s.station n).probeExpiry) := rfl
  have hcomplete : exec (.messageComplete n) s = .next (s.setStation n (s.station n).completeMessage) := rfl
  refine ⟨fun hp hf => ?_, fun hp hf => ?_, fun hf => ?_⟩
  · obtain ⟨k, hk⟩ := Option.ne_none_iff_exists'.mp hp
    rw [hprobe]
    unfold Station.probeExpiry
    rw [hk, hf]
  · obtain ⟨k, hk⟩ := Option.ne_none_iff_exists'.mp hp
    obtain ⟨m, hm⟩ := Option.ne_none_iff_exists'.mp hf
    rw [hprobe]
    unfold Station.probeExpiry
    rw [hk, hm]
  · obtain ⟨m, hm⟩ := Option.ne_none_iff_exists'.mp hf
    rw [hcomplete]
    unfold Station.completeMessage
    rw [hm]

theorem Refresh.lowestStale_some {dr : Refresh} {i : Fin 24} (hi : dr.stale[i.castSucc] = true)
    (hlow : ∀ j : Fin 24, j < i → dr.stale[j.castSucc] = false) : dr.lowestStale = some i := by
  unfold Refresh.lowestStale
  rw [List.find?_eq_some_iff_getElem]
  refine ⟨hi, i.1, by simp, by simp, fun j hj => ?_⟩
  have := hlow ⟨j, by omega⟩ hj
  simpa using this

theorem Refresh.lowestStale_none {dr : Refresh} (h : ∀ j : Fin 24, dr.stale[j.castSucc] = false) :
    dr.lowestStale = none := by
  unfold Refresh.lowestStale
  rw [List.find?_eq_none]
  intro j _
  rw [h j]
  exact nofun

/-- Settles O56: the choices of DR in their order. -/
theorem refreshChoosesFirstPending : Obligations.RefreshChoosesFirstPending := by
  intro s n hl hpaused hidle
  dsimp only
  have hexec : exec (.startMessage n) s = .next (s.setStation n (s.station n).startMessage) := rfl
  have hchoice : (s.station n).attached = true ∧ (s.station n).dr.paused = false ∧ (s.station n).dr.inFlight = none :=
    ⟨(s.station n).attached_iff.mpr hl, hpaused, hidle⟩
  have hnoalarm (h : (s.station n).dr.alarm = false) : ¬ (s.station n).dr.alarm = true := by simp [h]
  have hfresh (h : (s.station n).dr.stale[24] = false) : ¬ (s.station n).dr.stale[24] = true := by simp [h]
  rw [hexec]
  refine ⟨fun ha => ?_, fun ha => ⟨fun h24 => ?_, fun h24 => ⟨fun i hi hlow => ?_, fun hnone => ⟨fun hc =>
    ⟨fun line hline => ?_, fun hline => ?_⟩, fun hc => ?_⟩⟩⟩⟩
  · unfold Station.startMessage
    rw [if_pos hchoice, if_pos ha]
  · unfold Station.startMessage
    rw [if_pos hchoice, if_neg (hnoalarm ha), if_pos h24]
    rfl
  · unfold Station.startMessage
    rw [if_pos hchoice, if_neg (hnoalarm ha), if_neg (hfresh h24), Refresh.lowestStale_some hi hlow]
    have hne : i.1 ≠ 24 := by omega
    simp [Station.startLine, Station.lineMessage, hne]
  · unfold Station.startMessage
    rw [if_pos hchoice, if_neg (hnoalarm ha), if_neg (hfresh h24), Refresh.lowestStale_none hnone]
    dsimp only
    rw [if_pos hc]
    unfold Station.cursorMessage Sheet.cursorRow
    rw [hline]
  · unfold Station.startMessage
    rw [if_pos hchoice, if_neg (hnoalarm ha), if_neg (hfresh h24), Refresh.lowestStale_none hnone]
    dsimp only
    rw [if_pos hc]
    unfold Station.cursorMessage Sheet.cursorRow
    rw [hline]
  · unfold Station.startMessage
    rw [if_pos hchoice, if_neg (hnoalarm ha), if_neg (hfresh h24), Refresh.lowestStale_none hnone]
    dsimp only
    rw [if_neg (by simp [hc]), State.setStation_self]

end Sys2Proof.Machine
end

section
/-! SUPPORT. Key events and scanner characters: marks of an ATTACHED station, the translation and the routing of a
key-down, and the building of a scan (O47 to O49). -/

namespace Sys2Proof.Machine

/-! ### Marks while the link is ATTACHED (R36, R41) -/

theorem stale_indicator (stale : Vector Bool 25) :
    (Vector.ofFn fun i : Fin 25 => stale[i] || i.1 == 24) = stale.set 24 true := by
  ext i hi
  simp only [Vector.getElem_ofFn, Vector.getElem_set, Fin.getElem_fin]
  by_cases h : i = 24
  · simp [h]
  · have h' : ¬ 24 = i := fun e => h e.symm
    simp [h, h']

section
variable {st : Station} (h : st.link = .attached)
include h

theorem Station.markIndicator_attached :
    st.markIndicator = { st with dr := { st.dr with stale := st.dr.stale.set 24 true } } := by
  rw [← stale_indicator]
  exact if_pos (st.attached_iff.mpr h)

theorem Station.markCursor_attached : st.markCursor = { st with dr := { st.dr with cursorStale := true } } :=
  if_pos (st.attached_iff.mpr h)

theorem Station.requestAlarm_attached : st.requestAlarm = { st with dr := { st.dr with alarm := true } } :=
  if_pos (st.attached_iff.mpr h)

theorem Station.enterHeld_attached (e : OpError) : st.enterHeld e =
    { st with
        input := .held, error := some e, rep := none, typeAhead := []
        dr := { st.dr with stale := st.dr.stale.set 24 true, alarm := true } } := by
  unfold Station.enterHeld
  rw [Station.markIndicator_attached (st := { st with input := .held, error := some e, rep := none, typeAhead := [] }) h]
  exact Station.requestAlarm_attached (st :=
    { st with
        input := .held, error := some e, rep := none, typeAhead := []
        dr := { st.dr with stale := st.dr.stale.set 24 true } }) h

end

/-! ### A key-down at the station engine (R73 to R77) -/

/-- R76: the action of a key code in a plane of map 0. -/
def mapZeroAction (plane : Nat) (code : Byte) : Action :=
  actionOf (mapZero plane code.toNat).1 (mapZero plane code.toNat).2

theorem byte1_toNat (b : Byte) : byte1 b.toNat = b := BitVec.eq_of_toNat_eq (by simp [byte1])

theorem printable_of {b : Byte} (hlow : 0x20 ≤ b.toNat) (hhigh : b.toNat ≤ 0x7E) : printable b = true := by
  simp [printable, hlow, hhigh]

/-- R76: in plane 0 a printable code is its own character. -/
theorem mapZeroAction_char {code : Byte} (hlow : 0x20 ≤ code.toNat) (hhigh : code.toNat ≤ 0x7E) :
    mapZeroAction 0 code = .char code := by
  have hmap : mapZero 0 code.toNat = (0x01#8, code) := by
    unfold mapZero
    rw [if_pos ⟨hlow, hhigh⟩, if_neg (fun h => absurd h.2.2 (by decide)), byte1_toNat]
  unfold mapZeroAction
  rw [hmap]
  exact if_pos (printable_of hlow hhigh)

/-- R76: with SHIFT a letter has its upper case. -/
theorem mapZeroAction_letter {plane : Nat} {code : Byte} (hplane : plane % 2 = 1) (hlow : 0x61 ≤ code.toNat)
    (hhigh : code.toNat ≤ 0x7A) : mapZeroAction plane code = .char (code - 0x20#8) := by
  have hnat : (code - 0x20#8).toNat = code.toNat - 0x20 := by
    rw [BitVec.toNat_sub]
    have := code.isLt
    simp
    omega
  have hbyte : byte1 (code.toNat - 0x20) = code - 0x20#8 := by rw [← hnat, byte1_toNat]
  have hmap : mapZero plane code.toNat = (0x01#8, code - 0x20#8) := by
    unfold mapZero
    rw [if_pos ⟨by omega, by omega⟩, if_pos ⟨hlow, hhigh, hplane⟩, hbyte]
  have hprint : printable (code - 0x20#8) = true := printable_of (by rw [hnat]; omega) (by rw [hnat]; omega)
  unfold mapZeroAction
  rw [hmap]
  exact if_pos hprint

theorem mapZeroAction_signal : mapZeroAction 0 0x13#8 = .signal := by decide
theorem mapZeroAction_reset : mapZeroAction 0 0x10#8 = .reset := by decide
theorem mapZeroAction_unused : mapZeroAction 0 0x17#8 = .none := by decide
theorem mapZeroAction_shift : mapZeroAction 0 0x11#8 = .shift := by decide
theorem mapZeroAction_right : mapZeroAction 0 0x06#8 = .move .right := by decide
theorem mapZeroAction_release : mapZeroAction 0 0x0D#8 = .release 0x01#8 := by decide

theorem State.raise_eq (s : State) (n : StationIx) (bits : Byte) :
    s.raise n bits =
      { s with causes := s.causes.set (causeIx n).1 (s.causes[causeIx n] ||| bits) (causeIx n).2 } := rfl

/-- R73: a KEY message on an ATTACHED link. -/
theorem State.keyMessage_attached {s : State} {n : StationIx} (hl : (s.station n).link = .attached) {code : Byte}
    (hcode : 1 ≤ code.toNat ∧ code.toNat ≤ 127) (down : Bool) (time : Nat) :
    s.keyMessage n code down time =
      if down then (s.setStation n (s.station n).heard).keyDown n code time
      else s.setStation n ((s.station n).heard.keyUp code time) := by
  have hlisten := s.listens_of hl (by decide)
  unfold State.keyMessage
  rw [if_pos hlisten, if_pos hcode, State.signOfLife_attached hl, State.onStation_setStation]

theorem exec_keyDown_attached {s : State} {n : StationIx} (hl : (s.station n).link = .attached) {code : Byte}
    (hcode : 1 ≤ code.toNat ∧ code.toNat ≤ 127) (time : Nat) :
    exec (.keyDown n code time) s = .next ((s.setStation n (s.station n).heard).keyDown n code time) :=
  congrArg Host.Outcome.next (State.keyMessage_attached hl hcode true time)

theorem exec_keyUp_attached {s : State} {n : StationIx} (hl : (s.station n).link = .attached) {code : Byte}
    (hcode : 1 ≤ code.toNat ∧ code.toNat ≤ 127) (time : Nat) :
    exec (.keyUp n code time) s = .next (s.setStation n ((s.station n).heard.keyUp code time)) :=
  congrArg Host.Outcome.next (State.keyMessage_attached hl hcode false time)

/-- R74, R76: with the guard off and map 0 in force a key-down is its action of map 0. -/
theorem State.keyDown_mapZero (s : State) (n : StationIx) {st : Station} (hguard : st.profile.chatter = 0)
    (hsup : st.chatter.suppressed = none) (hmap : st.profile.keyMap = 0) (code : Byte) (time : Nat) :
    (s.setStation n st).keyDown n code time = (s.setStation n st).takeAction n code (mapZeroAction st.plane code) := by
  have hignore : st.ignoresDown code time = false := by
    unfold Station.ignoresDown
    rw [hguard]
    cases st.chatter.keyUp <;> simp
  have hun : st.unsuppress code = st := by simp [Station.unsuppress, hsup]
  have htrans : (s.setStation n st).translate n code = mapZeroAction st.plane code := by
    unfold State.translate State.mapEntry mapZeroAction
    rw [State.station_setStation_same, hmap, if_pos rfl]
  have htake : ((s.setStation n st).onStation n fun st => st.unsuppress code) = s.setStation n st := by
    rw [State.onStation_setStation, hun]
  unfold State.keyDown
  rw [State.station_setStation_same, hignore, htrans, htake]
  rfl

/-- R73 step 6: an action that is no modifier and not NONE is routed. -/
theorem State.takeAction_route (s : State) (n : StationIx) (st : Station) (code : Byte) {a : Action}
    (hshift : a ≠ .shift) (halt : a ≠ .alt) (hnone : a ≠ .none) :
    (s.setStation n st).takeAction n code a = (s.setStation n (st.loadRepeat code a)).route n a := by
  rw [← State.onStation_setStation s n st fun st => st.loadRepeat code a]
  unfold State.takeAction
  split
  · exact absurd rfl hshift
  · exact absurd rfl halt
  · exact absurd rfl hnone
  · rfl

section
variable {s : State} {n : StationIx} (h : (s.station n).KeyReady)
include h

theorem exec_keyDown_ready {code : Byte} (hcode : 1 ≤ code.toNat ∧ code.toNat ≤ 127) (time : Nat) :
    exec (.keyDown n code time) s =
      .next ((s.setStation n (s.station n).heard).takeAction n code (mapZeroAction 0 code)) := by
  obtain ⟨hl, hguard, hsup, hshift, halt, hmap⟩ := h
  have hplane : (s.station n).heard.plane = 0 := by
    simp [Station.plane, Station.heard, hshift, halt]
  rw [exec_keyDown_attached hl hcode, State.keyDown_mapZero s n (st := (s.station n).heard) hguard hsup hmap, hplane]

/-- R73: a key-down of a station ready for keys whose action is routed. -/
theorem exec_keyDown_routed {code : Byte} (hcode : 1 ≤ code.toNat ∧ code.toNat ≤ 127) (time : Nat) {a : Action}
    (ha : mapZeroAction 0 code = a) (hshift : a ≠ .shift) (halt : a ≠ .alt) (hnone : a ≠ .none) :
    exec (.keyDown n code time) s =
      .next ((s.setStation n ((s.station n).heard.loadRepeat code a)).route n a) := by
  rw [exec_keyDown_ready h hcode, ha, State.takeAction_route _ _ _ _ hshift halt hnone]

end

/-! ### Routing (R80 to R83) -/

/-- R73 step 5: a repeatable action that will be taken loads the repeat timer. -/
theorem Station.loadRepeat_taken {st : Station} (code : Byte) {a : Action} (hr : a.repeatable = true)
    (ht : st.takes = true) : st.loadRepeat code a = { st with rep := some ⟨code, a, st.profile.repeatDelay⟩ } := by
  unfold Station.loadRepeat
  rw [hr, ht]
  rfl

theorem Station.loadRepeat_stops {st : Station} (code : Byte) {a : Action} (h : a.repeatable = false ∨ st.takes = false) :
    st.loadRepeat code a = { st with rep := none } := by
  have hno : (a.repeatable && st.takes) = false := by
    rcases h with h | h <;> simp [h]
  unfold Station.loadRepeat
  rw [hno]
  rfl

theorem Station.takes_processing {st : Station} (h : st.Processing) : st.takes = true := by
  simp [Station.takes, h.1, h.2]

theorem Station.takes_held {st : Station} (h : st.input = .held) : st.takes = false := by simp [Station.takes, h]

/-- R80: a station whose actions go to the type-ahead queue. -/
def Station.Queues (st : Station) : Prop := st.Queueing ∨ st.input = .entry ∧ st.scan ≠ none

theorem Station.Queues.takes {st : Station} (h : st.Queues) : st.takes = decide (st.typeAhead.length < 32) := by
  unfold Station.takes typeAheadSize
  rcases h with (h | h | h | h) | ⟨h, hscan⟩
  · rw [h]; rfl
  · rw [h]; rfl
  · rw [h]; rfl
  · rw [h]; rfl
  · have hsome : st.scan.isNone = false := by
      cases hc : st.scan with
      | none => exact absurd hc hscan
      | some sc => rfl
    simp [h, hsome]

section
variable (s : State) (n : StationIx) {st : Station} {a : Action}

theorem State.route_held (h : st.input = .held) (hsignal : a ≠ .signal) (hreset : a ≠ .reset) :
    (s.setStation n st).route n a = s.setStation n st.requestAlarm := by
  have hinput : ((s.setStation n st).station n).input = .held := by rw [State.station_setStation_same]; exact h
  rw [← State.onStation_setStation s n st Station.requestAlarm]
  unfold State.route
  split
  · exact absurd rfl hsignal
  · exact absurd rfl hreset
  · rw [hinput]

theorem State.route_processing (h : st.Processing) (hsignal : a ≠ .signal) (hreset : a ≠ .reset) :
    (s.setStation n st).route n a = (s.setStation n st).process n a := by
  have hinput : ((s.setStation n st).station n).input = .entry := by rw [State.station_setStation_same]; exact h.1
  have hscan : ((s.setStation n st).station n).scan.isSome = false := by
    rw [State.station_setStation_same, h.2]; rfl
  unfold State.route
  split
  · exact absurd rfl hsignal
  · exact absurd rfl hreset
  · rw [hinput, hscan]
    rfl

theorem State.route_queues (h : st.Queues) (hsignal : a ≠ .signal) (hreset : a ≠ .reset) :
    (s.setStation n st).route n a = (s.setStation n st).typeAheadAppend n a := by
  have hst := State.station_setStation_same s n st
  unfold State.route
  split
  · exact absurd rfl hsignal
  · exact absurd rfl hreset
  · rcases h with (h | h | h | h) | ⟨h, hscan⟩
    · rw [hst, h]
    · rw [hst, h]
    · rw [hst, h]
    · rw [hst, h]
    · rw [hst, h]
      exact if_pos (Option.isSome_iff_ne_none.mpr hscan)

theorem State.typeAheadAppend_room (h : st.typeAhead.length < 32) :
    (s.setStation n st).typeAheadAppend n a = s.setStation n { st with typeAhead := st.typeAhead ++ [a] } := by
  have hroom : ((s.setStation n st).station n).typeAhead.length < typeAheadSize := by
    rw [State.station_setStation_same]; exact h
  unfold State.typeAheadAppend
  rw [if_pos hroom, State.onStation_setStation]

theorem State.typeAheadAppend_full (h : 32 ≤ st.typeAhead.length) :
    (s.setStation n st).typeAheadAppend n a =
      (s.setStation n { st with keysDiscarded := st.keysDiscarded + 1 }.requestAlarm).raise n causeTypeAheadFull := by
  have hfull : ¬ ((s.setStation n st).station n).typeAhead.length < typeAheadSize := by
    rw [State.station_setStation_same]; exact Nat.not_lt.mpr h
  unfold State.typeAheadAppend
  rw [if_neg hfull, State.onStation_setStation]

/-- R82: a RESET in HELD. -/
theorem State.route_reset_held (h : st.input = .held) :
    (s.setStation n st).route n .reset = s.setStation n st.resetHeld := by
  have hinput : ((s.setStation n st).station n).input = .held := by rw [State.station_setStation_same]; exact h
  rw [← State.onStation_setStation s n st Station.resetHeld]
  unfold State.route
  dsimp only
  rw [hinput]

theorem State.route_reset_queueing (h : st.Queueing) :
    (s.setStation n st).route n .reset = s.setStation n { st with typeAhead := [] } := by
  have hst := State.station_setStation_same s n st
  rw [← State.onStation_setStation s n st fun st => { st with typeAhead := [] }]
  unfold State.route
  dsimp only
  rcases h with h | h | h | h
  · rw [hst, h]
  · rw [hst, h]
  · rw [hst, h]
  · rw [hst, h]

theorem State.route_reset_processing (h : st.Processing) : (s.setStation n st).route n .reset = s.setStation n st := by
  unfold State.route
  dsimp only
  rw [State.station_setStation_same, h.1, h.2]
  rfl

end

/-- R82: what a RESET in HELD leaves of an ATTACHED station. -/
theorem Station.resetHeld_attached {st : Station} (hl : st.link = .attached) (hi : st.input = .held) :
    st.resetHeld =
      { st with
          input := .entry, rep := none, sheet := { st.sheet with insert := false }
          dr := { st.dr with stale := st.dr.stale.set 24 true } } := by
  have hset : st.setInsert false =
      { st with sheet := { st.sheet with insert := false }, dr := (st.setInsert false).dr } := by
    unfold Station.setInsert
    split
    case isTrue h => rw [← h]
    case isFalse => rw [Station.markIndicator_attached (by exact hl)]
  have hdr : (st.setInsert false).dr = st.dr ∨
      (st.setInsert false).dr = { st.dr with stale := st.dr.stale.set 24 true } := by
    unfold Station.setInsert
    split
    · exact .inl rfl
    · rw [Station.markIndicator_attached (by exact hl)]
      exact .inr rfl
  have hne : ¬ (st.setInsert false).input = .entry := by
    rw [Station.setInsert_input, hi]
    decide
  unfold Station.resetHeld Station.setInput
  rw [if_neg hne, Station.markIndicator_attached (by exact (Station.setInsert_link st false).trans hl), hset]
  rcases hdr with hdr | hdr <;> simp [hdr]

/-- Settles O47: by the input state. -/
theorem keyActionsRoutedByInputState : Obligations.KeyActionsRoutedByInputState := by
  intro s n code time hready hlow hhigh
  dsimp only
  have hl : (s.station n).heard.link = .attached := hready.1
  have hchar := mapZeroAction_char hlow hhigh
  have hkey := exec_keyDown_routed hready (code := code) ⟨by omega, by omega⟩ time hchar nofun nofun nofun
  have hsignal := exec_keyDown_routed hready (code := 0x13#8) (by decide) time mapZeroAction_signal nofun nofun nofun
  have hreset := exec_keyDown_routed hready (code := 0x10#8) (by decide) time mapZeroAction_reset nofun nofun nofun
  have hstop : (s.station n).heard.loadRepeat 0x10#8 .reset = { (s.station n).heard with rep := none } :=
    Station.loadRepeat_stops _ (.inl rfl)
  rw [hstop] at hreset
  refine ⟨fun hq => ⟨fun hroom => ?_, fun hfull => ?_⟩, fun hheld => ?_, ?_, fun hheld => ?_, fun hq => ?_,
    fun hp => ?_, ?_⟩
  · have hqueues : (s.station n).heard.Queues := hq
    have htakes : (s.station n).heard.takes = true := by rw [hqueues.takes]; exact decide_eq_true hroom
    rw [hkey, Station.loadRepeat_taken _ rfl htakes,
      State.route_queues _ _ (a := .char code) (by exact hqueues) nofun nofun,
      State.typeAheadAppend_room _ _ (by exact hroom)]
    rfl
  · have hqueues : (s.station n).heard.Queues := hq
    have htakes : (s.station n).heard.takes = false := by
      rw [hqueues.takes]
      exact decide_eq_false (Nat.not_lt.mpr hfull)
    rw [hkey, Station.loadRepeat_stops _ (.inr htakes),
      State.route_queues _ _ (a := .char code) (by exact hqueues) nofun nofun,
      State.typeAheadAppend_full _ _ (by exact hfull), Station.requestAlarm_attached (by exact hl), State.raise_eq]
    rfl
  · rw [hkey, Station.loadRepeat_stops _ (.inr (Station.takes_held (by exact hheld))),
      State.route_held _ _ (a := .char code) (by exact hheld) nofun nofun, Station.requestAlarm_attached (by exact hl)]
  · rw [hsignal, Station.loadRepeat_stops _ (.inl rfl)]
    rfl
  · refine ⟨_, ?_, rfl⟩
    rw [hreset, State.route_reset_held _ _ (by exact hheld), Station.resetHeld_attached (by exact hl) (by exact hheld)]
    rfl
  · rw [hreset, State.route_reset_queueing _ _ (by exact hq)]
  · rw [hreset, State.route_reset_processing _ _ (by exact hp)]
  · rw [exec_keyDown_ready hready (by decide), mapZeroAction_unused]
    unfold State.takeAction
    dsimp only
    rw [State.onStation_setStation]

/-- Settles O48: the guard, the modifier sets and the key-up. -/
theorem modifiersAndChatterGuard : Obligations.ModifiersAndChatterGuard := by
  intro s n code time hl hlow hhigh
  dsimp only
  refine ⟨fun hready => ?_, fun hguard hsup hmap hshift hlocked hroom ha hz => ?_, fun t0 hguard hup htime => ?_,
    fun hsup => ?_, fun hsup => ?_⟩
  · have hshift : addHolder 0x11#8 (s.station n).heard.shiftHolders = [0x11#8] := by
      obtain ⟨-, -, -, hshift, -⟩ := hready
      unfold addHolder Station.heard
      rw [hshift]
      rfl
    rw [exec_keyDown_ready hready (by decide), mapZeroAction_shift]
    unfold State.takeAction
    dsimp only
    rw [State.onStation_setStation, hshift]
  · have hplane : (s.station n).heard.plane % 2 = 1 := by
      have hne : ¬ (s.station n).heard.shiftHolders = [] := hshift
      unfold Station.plane
      rw [if_neg hne]
      split <;> rfl
    have hqueues : (s.station n).heard.Queues := .inl (.inl hlocked)
    have htakes : (s.station n).heard.takes = true := by rw [hqueues.takes]; exact decide_eq_true hroom
    rw [exec_keyDown_attached hl ⟨hlow, hhigh⟩, State.keyDown_mapZero s n (by exact hguard) (by exact hsup) (by exact hmap),
      mapZeroAction_letter hplane ha hz, State.takeAction_route _ _ _ _ (a := .char (code - 0x20#8)) nofun nofun nofun,
      Station.loadRepeat_taken _ rfl htakes,
      State.route_queues _ _ (a := .char (code - 0x20#8)) (by exact hqueues) nofun nofun,
      State.typeAheadAppend_room _ _ (by exact hroom)]
    rfl
  · have hignore : ((s.setStation n (s.station n).heard).station n).ignoresDown code time = true := by
      have hchatter : (s.station n).heard.chatter.keyUp = some (code, t0) := hup
      rw [State.station_setStation_same]
      unfold Station.ignoresDown
      rw [hchatter]
      simp [Station.heard, hguard, htime]
    rw [exec_keyDown_attached hl ⟨hlow, hhigh⟩]
    unfold State.keyDown
    rw [hignore, if_pos rfl, State.onStation_setStation]
    rfl
  · rw [exec_keyUp_attached hl ⟨hlow, hhigh⟩]
    unfold Station.keyUp
    rw [if_pos (by exact hsup)]
    rfl
  · rw [exec_keyUp_attached hl ⟨hlow, hhigh⟩]
    unfold Station.keyUp
    rw [if_neg (by exact hsup)]
    rfl

/-! ### Scanner characters (R115, R116) -/

theorem exec_scanch_attached {s : State} {n : StationIx} (hl : (s.station n).link = .attached) (c : Byte) :
    exec (.scanch n c) s = .next ((s.setStation n (s.station n).heard).scanChar n c) := by
  change Host.Outcome.next (s.scanMessage n c) = _
  unfold State.scanMessage
  rw [if_pos (s.listens_of hl (by decide)), State.signOfLife_attached hl]

theorem Station.isSuffix_iff {st : Station} {c : Byte} :
    st.isSuffix c = true ↔ st.profile.suffix ≠ 0x00#8 ∧ c = st.profile.suffix := by
  simp [Station.isSuffix]

theorem Station.not_isSuffix {st : Station} {c : Byte} (h : st.profile.suffix = 0x00#8 ∨ c ≠ st.profile.suffix) :
    st.isSuffix c = false := by
  rw [Bool.eq_false_iff, ne_eq, Station.isSuffix_iff]
  exact fun hs => h.elim hs.1 fun hne => hne hs.2

section
variable (s : State) (n : StationIx) {st : Station} {c : Byte}

theorem State.scanChar_closed (h : st.scan = none) :
    (s.setStation n st).scanChar n c =
      if st.isSuffix c then s.setStation n st
      else if st.input = .entry then s.setStation n (st.openScan c) else s.setStation n st.rejectChar := by
  unfold State.scanChar
  rw [State.station_setStation_same, h, State.onStation_setStation, State.onStation_setStation]

theorem State.scanChar_open {sc : Scan} (h : st.scan = some sc) :
    (s.setStation n st).scanChar n c =
      if st.isSuffix c then (s.setStation n st).closeScan n else s.setStation n (st.growScan sc c) := by
  rw [← State.onStation_setStation s n st fun st => st.growScan sc c]
  unfold State.scanChar
  rw [State.station_setStation_same, h]

end

/-- Settles O49: with no scan open by the input state, with one open by its buffer. -/
theorem scanCharactersBuildScan : Obligations.ScanCharactersBuildScan := by
  intro s n ch hl
  dsimp only
  rw [exec_scanch_attached hl]
  have hlink : (s.station n).heard.link = .attached := hl
  refine ⟨fun hclosed hs hch => ?_, fun hno => ?_⟩
  · have hsuffix : (s.station n).heard.isSuffix ch = true := Station.isSuffix_iff.mpr ⟨hs, hch⟩
    rw [State.scanChar_closed s n (by exact hclosed), hsuffix]
    rfl
  · have hsuffix : (s.station n).heard.isSuffix ch = false := Station.not_isSuffix hno
    refine ⟨fun hclosed hentry => ?_, fun hclosed hentry => ?_, fun sc hopen => ⟨fun hroom => ?_, fun hfull => ?_⟩⟩
    · rw [State.scanChar_closed s n (by exact hclosed), hsuffix, if_neg nofun, if_pos (by exact hentry)]
      unfold Station.openScan
      rw [Station.markIndicator_attached (by exact hl)]
      rfl
    · rw [State.scanChar_closed s n (by exact hclosed), hsuffix, if_neg nofun, if_neg (by exact hentry)]
      unfold Station.rejectChar
      rw [Station.requestAlarm_attached (by exact hl)]
      rfl
    · rw [State.scanChar_open s n (by exact hopen), hsuffix, if_neg nofun]
      unfold Station.growScan
      rw [if_pos (by exact hroom)]
      rfl
    · have hnot : ¬ sc.buffer.length < scanBufferSize := Nat.not_lt.mpr hfull
      rw [State.scanChar_open s n (by exact hopen), hsuffix, if_neg nofun]
      unfold Station.growScan
      rw [if_neg hnot]
      rfl

end Sys2Proof.Machine
end

section
/-! SUPPORT. What a key processed in ENTRY and a closed scan leave of their station (O44 to O46, O50). -/

namespace Sys2Proof.Machine

/-! ### The marks an edit adds (R36) -/

/-- Of the display refresh unit only stale marks and the cursor-stale flag differ, and none is cleared. -/
def Refresh.StaleFrom (dr dr' : Refresh) : Prop :=
  dr' = { dr with stale := dr'.stale, cursorStale := dr'.cursorStale } ∧
    (dr.cursorStale = true → dr'.cursorStale = true) ∧ ∀ i : Fin 25, dr.stale[i] = true → dr'.stale[i] = true

namespace Refresh.StaleFrom

theorem refl (dr : Refresh) : dr.StaleFrom dr := ⟨rfl, id, fun _ => id⟩

theorem trans {a b c : Refresh} (h : a.StaleFrom b) (k : b.StaleFrom c) : a.StaleFrom c := by
  obtain ⟨hb, hc, hs⟩ := h
  obtain ⟨kb, kc, ks⟩ := k
  exact ⟨by rw [kb, hb], kc ∘ hc, fun i => ks i ∘ hs i⟩

theorem markLines (st : Station) (p : Nat → Bool) : st.dr.StaleFrom (st.markLines p).dr := by
  have hstale := st.markLines_stale p
  unfold Station.markLines at hstale ⊢
  split
  case isTrue h =>
    rw [if_pos h] at hstale
    exact ⟨rfl, id, fun i hi => by rw [hstale, hi]; rfl⟩
  case isFalse => exact refl _

theorem markCursor (st : Station) : st.dr.StaleFrom st.markCursor.dr := by
  unfold Station.markCursor
  split
  · exact ⟨rfl, fun _ => rfl, fun _ => id⟩
  · exact refl _

theorem putCells (st : Station) (a : Nat) (chars : List Byte) : st.dr.StaleFrom (st.putCells a chars).dr :=
  markLines { st with sheet := st.sheet.putCells a chars } _

theorem setCursor (st : Station) (a : Nat) : st.dr.StaleFrom (st.setCursor a).dr := by
  unfold Station.setCursor
  split
  · exact refl _
  · exact markCursor { st with sheet := { st.sheet with cursor := a } }

theorem setTop (st : Station) (t : Nat) : st.dr.StaleFrom (st.setTop t).dr := by
  unfold Station.setTop
  split
  · exact refl _
  · exact (markLines { st with sheet := { st.sheet with top := t } } _).trans (markCursor _)

end Refresh.StaleFrom

/-- R13, R85: a move carried out on an ATTACHED link marks the cursor stale and clears no mark. -/
theorem Station.carryOut_staleFrom {st : Station} (hl : st.link = .attached) (target : Nat) (top : Option Nat) :
    st.dr.StaleFrom (st.carryOut target top).dr ∧ (st.carryOut target top).dr.cursorStale = true := by
  have hmoved : ((st.setCursor target).markCursor).dr.cursorStale = true := by
    rw [Station.markCursor_attached (by rw [Station.setCursor_eq]; exact hl)]
  have htops : ((st.setCursor target).markCursor).dr.StaleFrom (st.carryOut target top).dr :=
    (Refresh.StaleFrom.setTop ((st.setCursor target).markCursor) (top.getD st.sheet.top)).trans
      (Refresh.StaleFrom.setTop _ _)
  exact ⟨(Refresh.StaleFrom.setCursor st target).trans ((Refresh.StaleFrom.markCursor _).trans htops),
    htops.2.1 hmoved⟩

theorem Station.carryOut_attached {st : Station} (hl : st.link = .attached) (target : Nat) (top : Option Nat) :
    st.carryOut target top =
      { st with
          sheet := { st.sheet with cursor := target, top := st.sheet.followTop (target / 80) (top.getD st.sheet.top) }
          dr := { st.dr with stale := (st.carryOut target top).dr.stale, cursorStale := true } } := by
  obtain ⟨⟨hdr, -, -⟩, hcursor⟩ := Station.carryOut_staleFrom hl target top
  rw [hcursor] at hdr
  rw [← hdr]
  exact st.carryOut_eq target top

/-- R113, R127: the cursor moved on an ATTACHED link, and an operator error. -/
theorem Station.failCheck_attached {st : Station} (hl : st.link = .attached) (f : Field) (e : OpError) :
    st.failCheck f e =
      { st with
          input := .held, error := some e, rep := none, typeAhead := []
          sheet := { st.sheet with cursor := f.start, top := st.sheet.followTop (f.start / 80) st.sheet.top }
          dr := { st.dr with stale := (st.failCheck f e).dr.stale, cursorStale := true, alarm := true } } := by
  have hlink : (st.carryOut f.start none).link = .attached := by rw [Station.carryOut_eq]; exact hl
  have hheld : st.failCheck f e = (st.carryOut f.start none).enterHeld e := rfl
  rw [hheld, Station.enterHeld_attached hlink, Station.carryOut_attached hl]
  rfl

theorem Station.failRelease_attached {st : Station} (hl : st.link = .attached) (f : Field) (e : OpError) :
    st.failRelease f e =
      { st with
          input := .held, error := some e, rep := none, typeAhead := []
          sheet := { st.sheet with
            cursor := f.start, edited := some f.number, top := st.sheet.followTop (f.start / 80) st.sheet.top }
          dr := { st.dr with stale := (st.failRelease f e).dr.stale, cursorStale := true, alarm := true } } := by
  have hlink : ((st.carryOut f.start none).setEdited (some f.number)).link = .attached := by
    unfold Station.setEdited
    rw [Station.carryOut_eq]
    exact hl
  have hheld : st.failRelease f e = ((st.carryOut f.start none).setEdited (some f.number)).enterHeld e := rfl
  rw [hheld, Station.enterHeld_attached hlink, Station.carryOut_attached hl]
  rfl

/-! ### Cells (R1) -/

/-- A cell depends on the cells alone. -/
theorem Sheet.cell_congr {sh sh' : Sheet} (h : sh.cells = sh'.cells) (a : Nat) : sh.cell a = sh'.cell a := by
  unfold Sheet.cell
  rw [h]

/-- A field rewritten whole. -/
theorem Station.content_putCells {st : Station} (h : st.sheet.Sound) (f : Field) {chars : List Byte}
    (hlen : chars.length = f.length) : (st.putCells f.start chars).sheet.content f = chars ∧
      ∀ a, f.covers a = false → (st.putCells f.start chars).sheet.cell a = st.sheet.cell a := by
  obtain ⟨-, -, -, -, ⟨hwf, -⟩, -⟩ := h
  rw [Station.putCells_sheet]
  refine ⟨Sheet.content_putCells _ _ _ hwf hlen, fun a ha => Sheet.cell_putCells_outside _ _ _ _ ?_⟩
  rw [hlen]
  by_contra hin
  rw [Bool.eq_false_iff, ne_eq, Field.covers_iff] at ha
  omega

/-! ### Characters (R98 to R100) -/

theorem State.process_char (s : State) (n : StationIx) (st : Station) (c : Byte) :
    (s.setStation n st).process n (.char c) = s.setStation n (st.charAction s.classes c) := by
  unfold State.process
  dsimp only
  rw [State.onStation_setStation]
  rfl

theorem State.process_move (s : State) (n : StationIx) (st : Station) (m : Move) :
    (s.setStation n st).process n (.move m) = s.setStation n (st.moveAction s.classes m) := by
  unfold State.process
  dsimp only
  rw [State.onStation_setStation]
  rfl

theorem Station.charAction_fixedCell {st : Station} (tu : Vector ClassRec 15) (c : Byte)
    (h : ∀ f ∈ st.sheet.fields, f.isInput = true → f.covers st.sheet.cursor = false) :
    st.charAction tu c = st.enterHeld .fixedCell := by
  unfold Station.charAction
  rw [Sheet.inputAt_none h]

section
variable {st : Station} (h : st.sheet.Sound) {f : Field} (hf : f ∈ st.sheet.fields) (hi : f.isInput = true)
  (hc : f.covers st.sheet.cursor = true) (tu : Vector ClassRec 15) (c : Byte)
include h hf hi hc

theorem Station.charAction_notAllowed
    (hp : (classRec tu f.props.cls).permitsChar ((classRec tu f.props.cls).foldChar c) = false) :
    st.charAction tu c = st.enterHeld .notAllowed := by
  obtain ⟨-, -, -, -, -, hfields, -⟩ := id h
  unfold Station.charAction Sheet.charFault
  rw [Sheet.inputAt_of_covers hfields hf hi hc]
  dsimp only
  rw [hp]
  rfl

/-- R98 to R100: a permitted character before the field's last cell is stored, and the cursor moves right. -/
theorem Station.charAction_stored
    (hp : (classRec tu f.props.cls).permitsChar ((classRec tu f.props.cls).foldChar c) = true)
    (hins : st.sheet.insert = false) (hlast : st.sheet.cursor + 1 < f.start + f.length) :
    st.charAction tu c =
      (st.storeChar f ((classRec tu f.props.cls).foldChar c)).carryOut (st.sheet.cursor + 1) none := by
  obtain ⟨-, -, -, -, -, hfields, -⟩ := id h
  obtain ⟨-, hend⟩ := h.field hf
  have hin := Field.covers_iff.mp hc
  have hmod : (st.sheet.cursor + 1) % st.sheet.size = st.sheet.cursor + 1 := Nat.mod_eq_of_lt (by omega)
  have hnotlast : ¬ (st.sheet.cursor = f.last ∧ f.props.advance = true) := by
    unfold Field.last
    omega
  have hafter : st.sheet.afterStore f = st.sheet.cursor + 1 := by
    unfold Sheet.afterStore
    rw [if_neg hnotlast, hmod]
  have hfault : st.sheet.charFault tu f ((classRec tu f.props.cls).foldChar c) = none := by
    unfold Sheet.charFault
    rw [hp, hins]
    rfl
  have hsound := Station.storeChar_sound h hf hc (ClassRec.printable_of_permits hp)
  have hsheet : (st.storeChar f ((classRec tu f.props.cls).foldChar c)).sheet.fields =
      st.sheet.fields.map fun g => if g.number = f.number then { g with touched := true } else g := by
    unfold Station.storeChar
    rw [Station.putCells_eq]
    rfl
  have hcursor : (st.storeChar f ((classRec tu f.props.cls).foldChar c)).sheet.cursor = st.sheet.cursor := by
    unfold Station.storeChar
    rw [Station.putCells_eq]
    rfl
  have hmem : ({ f with touched := true } : Field) ∈
      (st.storeChar f ((classRec tu f.props.cls).foldChar c)).sheet.fields := by
    rw [hsheet]
    exact List.mem_map.mpr ⟨f, hf, if_pos rfl⟩
  unfold Station.charAction
  rw [Sheet.inputAt_of_covers hfields hf hi hc]
  dsimp only
  rw [hfault, hafter]
  exact Station.operatorMove_inside hsound tu hmem (by rw [hcursor]; exact hc)
    (Field.covers_iff.mpr ⟨by exact Nat.le_succ_of_le hin.1, hlast⟩)

end

/-- R99: a store of one character with the insert flag off. -/
theorem Station.storeChar_eq {st : Station} (f : Field) (c : Byte) (hins : st.sheet.insert = false) :
    st.storeChar f c =
      { st with
          sheet := { (st.sheet.putCells st.sheet.cursor [c]).touch f.number with edited := some f.number }
          dr := (st.putCells st.sheet.cursor [c]).dr } := by
  have hchars : st.sheet.storedChars f c = [c] := by
    unfold Sheet.storedChars
    rw [hins]
    rfl
  unfold Station.storeChar
  rw [hchars, Station.putCells_eq]
  rfl

/-- R99, R100: a character stored with the insert flag off, and the cursor moved right. -/
theorem Station.storedAndMoved {st : Station} (hl : st.link = .attached) (h : st.sheet.Sound) (f : Field) (c : Byte)
    (hins : st.sheet.insert = false) :
    let st' := (st.storeChar f c).carryOut (st.sheet.cursor + 1) none
    st' = { st with
              sheet := { st.sheet with
                cells := st'.sheet.cells, edited := some f.number, cursor := st.sheet.cursor + 1
                top := st.sheet.followTop ((st.sheet.cursor + 1) / 80) st.sheet.top
                fields := st.sheet.fields.map fun g => if g.number = f.number then { g with touched := true } else g }
              dr := { st.dr with stale := st'.dr.stale, cursorStale := true } } ∧
      (∀ a, st'.sheet.cell a = if a = st.sheet.cursor then c else st.sheet.cell a) ∧
      ∀ i : Fin 25, st.dr.stale[i] = true ∨ st.sheet.showsCells st.sheet.cursor 1 i.1 = true →
        st'.dr.stale[i] = true := by
  intro st'
  have hstored := st.storeChar_eq f c hins
  have hlink : (st.storeChar f c).link = .attached := by rw [hstored]; exact hl
  obtain ⟨hcarry, hcursor⟩ := Station.carryOut_staleFrom hlink (st.sheet.cursor + 1) none
  have hdr : (st.storeChar f c).dr = (st.putCells st.sheet.cursor [c]).dr := by rw [hstored]
  have hst : st' = _ := Station.carryOut_attached hlink (st.sheet.cursor + 1) none
  have hcells : st'.sheet.cells = (st.sheet.putCells st.sheet.cursor [c]).cells := by
    rw [hst, hstored]
    rfl
  obtain ⟨hput, -, hmono⟩ := Refresh.StaleFrom.putCells st st.sheet.cursor [c]
  obtain ⟨-, -, -, -, ⟨hwf, -⟩, -⟩ := h
  refine ⟨?_, fun a => ?_, fun i hstale => hcarry.2.2 i ?_⟩
  · rw [hcells]
    refine hst.trans ?_
    generalize ((st.storeChar f c).carryOut (st.sheet.cursor + 1) none).dr.stale = stale
    rw [hstored, hput]
    rfl
  · rw [Sheet.cell_congr hcells a, Sheet.cell_putCells_one hwf]
  · rw [hdr]
    rcases hstale with hstale | hshows
    · exact hmono i hstale
    · have hmark : (st.putCells st.sheet.cursor [c]).dr.stale[i] =
          (st.dr.stale[i] || (st.attached && st.sheet.lineShows st.sheet.cursor 1 i.1)) :=
        Station.markLines_stale _ _ i
      rw [hmark, Sheet.lineShows_eq, hshows, st.attached_iff.mpr hl, Bool.and_true, Bool.or_true]

/-- Settles O44: outside an INPUT field, not permitted, stored. -/
theorem characterKeyStoredOrHeld : Obligations.CharacterKeyStoredOrHeld := by
  intro s n code time hsheets hready hproc hlow hhigh
  dsimp only
  have hl : (s.station n).heard.link = .attached := hready.1
  have hprocessing : (s.station n).heard.Processing := hproc
  have hkey := exec_keyDown_routed hready (code := code) ⟨by omega, by omega⟩ time (mapZeroAction_char hlow hhigh)
    nofun nofun nofun
  rw [Station.loadRepeat_taken code rfl (Station.takes_processing hprocessing),
    State.route_processing s n (a := .char code) (by exact hproc) nofun nofun, State.process_char] at hkey
  refine ⟨fun hfixed => ?_, fun f hf hi hc => ⟨fun hp => ?_, fun hp hins hlast => ?_⟩⟩
  · rw [hkey, Station.charAction_fixedCell _ _ (by exact hfixed), Station.enterHeld_attached (by exact hl)]
    rfl
  · rw [hkey, Station.charAction_notAllowed (by exact hsheets n) (by exact hf) hi (by exact hc) _ _ hp,
      Station.enterHeld_attached (by exact hl)]
    rfl
  · rw [hkey, Station.charAction_stored (by exact hsheets n) (by exact hf) hi (by exact hc) _ _ hp (by exact hins)
      (by exact hlast)]
    obtain ⟨hst, hcells, hstale⟩ := Station.storedAndMoved (st :=
      { (s.station n).heard with rep := some ⟨code, .char code, (s.station n).heard.profile.repeatDelay⟩ })
      (by exact hl) (by exact hsheets n) f ((classRec s.classes f.props.cls).foldChar code) (by exact hins)
    exact ⟨_, rfl, hst, hcells, hstale⟩

/-! ### Operator moves (R13, R111 to R113) -/

/-- R111, R112: a passed exit check justifies the field's content and changes no other cell. -/
theorem Station.passExit_content {st : Station} (h : st.sheet.Sound) (f : Field) :
    (st.passExit f).sheet.content f = justified f.props.justify (st.sheet.content f) ∧
      ∀ a, f.covers a = false → (st.passExit f).sheet.cell a = st.sheet.cell a := by
  unfold Station.passExit Station.justifyField
  split
  case isTrue hkeep =>
    have hsame : justified f.props.justify (st.sheet.content f) = st.sheet.content f := by
      unfold justified
      rcases hkeep with hleft | hempty
      · rw [hleft, ite_self]
      · rw [if_pos hempty]
    exact ⟨hsame.symm, fun _ _ => rfl⟩
  case isFalse =>
    exact Station.content_putCells h f (by rw [length_justified, Sheet.length_content])

theorem Refresh.StaleFrom.passExit (st : Station) (f : Field) : st.dr.StaleFrom (st.passExit f).dr := by
  unfold Station.passExit Station.justifyField
  split
  · exact .refl _
  · exact .putCells st _ _

/-- R112: what a passed exit check and the move that follows it leave of an ATTACHED station. -/
theorem Station.passExit_moved {st : Station} (hl : st.link = .attached) (f : Field) (target : Nat) :
    let st' := (st.passExit f).carryOut target none
    st' = { st with
              sheet := { st.sheet with
                cells := st'.sheet.cells, edited := none, cursor := target
                top := st.sheet.followTop (target / 80) st.sheet.top }
              dr := { st.dr with stale := st'.dr.stale, cursorStale := true } } ∧
      st'.sheet.cells = (st.passExit f).sheet.cells := by
  intro st'
  have hlink : (st.passExit f).link = .attached := by rw [Station.passExit_eq]; exact hl
  have hst : st' = _ := Station.carryOut_attached hlink target none
  have hcells : st'.sheet.cells = (st.passExit f).sheet.cells := by rw [hst]
  obtain ⟨hdr, -, -⟩ := Refresh.StaleFrom.passExit st f
  refine ⟨?_, hcells⟩
  rw [hcells]
  refine hst.trans ?_
  generalize ((st.passExit f).carryOut target none).dr.stale = stale
  rw [hdr, Station.passExit_eq]
  rfl

theorem Station.moveAction_right (st : Station) (tu : Vector ClassRec 15) :
    st.moveAction tu .right = st.operatorMove tu ((st.sheet.cursor + 1) % st.sheet.size) none := rfl

section
variable {st : Station} {tu : Vector ClassRec 15} {target : Nat}

theorem Station.operatorMove_free (h : st.sheet.leaving target = none) (top : Option Nat) :
    st.operatorMove tu target top = st.carryOut target top := by
  unfold Station.operatorMove
  rw [h]

theorem Station.operatorMove_passed {f : Field} (h : st.sheet.leaving target = some f)
    (hv : st.sheet.valueChecks tu f = none) (top : Option Nat) :
    st.operatorMove tu target top = (st.passExit f).carryOut target top := by
  unfold Station.operatorMove
  rw [h]
  dsimp only
  rw [hv]

theorem Station.operatorMove_failed {f : Field} {e : OpError} (h : st.sheet.leaving target = some f)
    (hv : st.sheet.valueChecks tu f = some e) (top : Option Nat) :
    st.operatorMove tu target top = st.failCheck f e := by
  unfold Station.operatorMove
  rw [h]
  dsimp only
  rw [hv]

end

/-- Settles O45: inside the edited field, out of it with the exit check passed, and failed. -/
theorem moveOutOfEditedFieldRunsExitCheck : Obligations.MoveOutOfEditedFieldRunsExitCheck := by
  intro s n time hsheets hready hproc
  dsimp only
  have hl : (s.station n).link = .attached := hready.1
  have hprocessing : (s.station n).heard.Processing := hproc
  obtain ⟨-, -, -, -, -, hfields, -⟩ := id (hsheets n)
  have hkey := exec_keyDown_routed hready (code := 0x06#8) (by decide) time mapZeroAction_right nofun nofun nofun
  rw [Station.loadRepeat_taken _ rfl (Station.takes_processing hprocessing),
    State.route_processing s n (a := .move .right) (by exact hproc) nofun nofun, State.process_move] at hkey
  refine ⟨_, hkey, fun hin => ?_, fun f hf he hout => ⟨fun hv => ?_, fun e hv => ?_⟩⟩
  · have hnone : (s.station n).sheet.leaving
        (((s.station n).sheet.cursor + 1) % ((s.station n).sheet.rows * 80)) = none := by
      rcases hin with hnone | ⟨f, hf, he, hin⟩
      · exact Sheet.leaving_none hnone _
      · exact Sheet.leaving_inside hfields hf he hin
    rw [Station.moveAction_right, Station.operatorMove_free (by exact hnone)]
    exact Station.carryOut_attached (by exact hl) _ _
  · have hleave := Sheet.leaving_some (hsheets n) hf he hout
    obtain ⟨hst, hcells⟩ := Station.passExit_moved (st :=
      { (s.station n).heard with rep := some ⟨0x06#8, .move .right, (s.station n).heard.profile.repeatDelay⟩ })
      (by exact hl) f (((s.station n).sheet.cursor + 1) % (s.station n).sheet.size)
    obtain ⟨hcontent, hrest⟩ := Station.passExit_content (st :=
      { (s.station n).heard with rep := some ⟨0x06#8, .move .right, (s.station n).heard.profile.repeatDelay⟩ })
      (by exact hsheets n) f
    rw [Station.moveAction_right, Station.operatorMove_passed (by exact hleave) (by exact hv)]
    refine ⟨hst, (Sheet.content_congr hcells f).trans hcontent, fun a ha => (Sheet.cell_congr hcells a).trans (hrest a ha)⟩
  · have hleave := Sheet.leaving_some (hsheets n) hf he hout
    rw [Station.moveAction_right, Station.operatorMove_failed (by exact hleave) (by exact hv)]
    exact Station.failCheck_attached (by exact hl) f e

/-! ### The release key (R125 to R132) -/

theorem Sheet.firstFault_some {sh : Sheet} {tu : Vector ClassRec 15} {f : Field} {e : OpError}
    (before after : List Field) (hb : ∀ g ∈ before, sh.releaseFault tu g = none) (hf : sh.releaseFault tu f = some e) :
    sh.firstFault tu (before ++ f :: after) = some (f, e) := by
  induction before with
  | nil =>
    rw [List.nil_append]
    unfold Sheet.firstFault
    rw [hf]
  | cons g before ih =>
    rw [List.cons_append]
    unfold Sheet.firstFault
    rw [hb g (by simp)]
    exact ih fun g hg => hb g (by simp [hg])

theorem Sheet.firstFault_none {sh : Sheet} {tu : Vector ClassRec 15} {fs : List Field}
    (h : ∀ g ∈ fs, sh.releaseFault tu g = none) : sh.firstFault tu fs = none := by
  induction fs with
  | nil => rfl
  | cons f fs ih =>
    unfold Sheet.firstFault
    rw [h f (by simp)]
    exact ih fun g hg => h g (by simp [hg])

section
variable {st : Station} (he : st.sheet.edited = none) (tu : Vector ClassRec 15)
include he

/-- R125: with no edited field the field checks are all there is. -/
theorem Station.releaseChecks_unedited (full : Bool) : st.releaseChecks tu full = st.formChecks tu full := by
  have hnone : st.sheet.editedField = none := by
    unfold Sheet.editedField
    rw [he]
    rfl
  unfold Station.releaseChecks Station.pendingExit
  rw [hnone]

theorem Station.releaseChecks_fault {f : Field} {e : OpError}
    (h : st.sheet.firstFault tu st.sheet.fields = some (f, e)) :
    st.releaseChecks tu true = .error (st.failRelease f e) := by
  rw [Station.releaseChecks_unedited he]
  unfold Station.formChecks
  rw [if_pos rfl, h]

theorem Station.releaseChecks_size (h : st.sheet.firstFault tu st.sheet.fields = none) :
    st.releaseChecks tu true =
      if 2048 < recordSize (st.sheet.releaseEntries true) then .error (st.enterHeld .tooLong) else .ok st := by
  rw [Station.releaseChecks_unedited he]
  unfold Station.formChecks
  rw [if_pos rfl, h]

end

section
variable (s : State) (n : StationIx) {st st' : Station} (code : Byte) (pri : Priority) (full : Bool)

theorem State.release_error (h : st.releaseChecks s.classes full = .error st') :
    (s.setStation n st).release n code pri full = s.setStation n st' := by
  have hchecks : ((s.setStation n st).station n).releaseChecks (s.setStation n st).classes full = .error st' := by
    rw [State.station_setStation_same]
    exact h
  unfold State.release
  rw [hchecks]
  exact State.setStation_setStation s n st st'

theorem State.release_ok (h : st.releaseChecks s.classes full = .ok st') :
    (s.setStation n st).release n code pri full = (s.setStation n st').placeRelease n code pri full := by
  have hchecks : ((s.setStation n st).station n).releaseChecks (s.setStation n st).classes full = .ok st' := by
    rw [State.station_setStation_same]
    exact h
  unfold State.release
  rw [hchecks]
  exact congrArg (fun t => State.placeRelease t n code pri full) (State.setStation_setStation s n st st')

/-- R130: the record is queued when nobody waits and it fits. -/
theorem State.placeRelease_queued (hroom : s.rq.rooms = [])
    (hfits : s.rq.staging + recordSize (st.sheet.releaseEntries full) ≤ 8192) :
    (s.setStation n st).placeRelease n code pri full =
      { s.setStation n (st.setInput .released) with
        rq := s.rq.append (st.sheet.compose ⟨n, code, pri, full, recordSize (st.sheet.releaseEntries full)⟩) } := by
  have hst := State.station_setStation_same s n st
  have hplace : (s.setStation n st).rq.rooms = [] ∧
      (s.setStation n st).rq.fits (recordSize (st.sheet.releaseEntries full)) = true :=
    ⟨hroom, decide_eq_true hfits⟩
  unfold State.placeRelease State.enqueue
  dsimp only
  rw [hst, if_pos hplace]
  exact State.onStation_setStation
    { s with rq := s.rq.append (st.sheet.compose ⟨n, code, pri, full, recordSize (st.sheet.releaseEntries full)⟩) } n st _

/-- R130: else the station joins the room-wait list. -/
theorem State.placeRelease_waits
    (h : s.rq.rooms ≠ [] ∨ 8192 < s.rq.staging + recordSize (st.sheet.releaseEntries full)) :
    (s.setStation n st).placeRelease n code pri full =
      { s.setStation n (st.setInput .roomWait) with
        rq := { s.rq with
          rooms := s.rq.rooms ++ [⟨n, code, pri, full, recordSize (st.sheet.releaseEntries full)⟩] } } := by
  have hst := State.station_setStation_same s n st
  have hplace : ¬ ((s.setStation n st).rq.rooms = [] ∧
      (s.setStation n st).rq.fits (recordSize (st.sheet.releaseEntries full)) = true) := fun hp =>
    h.elim (fun hne => hne hp.1) fun hlt => absurd (of_decide_eq_true hp.2) (Nat.not_le.mpr hlt)
  unfold State.placeRelease State.awaitRoom
  dsimp only
  rw [hst, if_neg hplace]
  exact State.onStation_setStation
    { s with rq := { s.rq with
      rooms := s.rq.rooms ++ [⟨n, code, pri, full, recordSize (st.sheet.releaseEntries full)⟩] } } n st _

end

/-- Settles O46: the first failing field, the size, the free staging space. -/
theorem releaseKeyQueuesRecord : Obligations.ReleaseKeyQueuesRecord := by
  intro s n time hsheets hready hproc hed
  dsimp only
  have hl : (s.station n).link = .attached := hready.1
  have hkey := exec_keyDown_routed hready (code := 0x0D#8) (by decide) time mapZeroAction_release nofun nofun nofun
  rw [Station.loadRepeat_stops _ (.inl rfl),
    State.route_processing s n (a := .release 0x01#8) (by exact hproc) nofun nofun] at hkey
  generalize hst : ({ (s.station n).heard with rep := none } : Station) = st at hkey
  have hlink : st.link = .attached := by rw [← hst]; exact hl
  have hsheet : st.sheet = (s.station n).sheet := by rw [← hst]; rfl
  have hedited : st.sheet.edited = none := by rw [hsheet]; exact hed
  have hprocess : (s.setStation n st).process n (.release 0x01#8) = (s.setStation n st).release n 0x01#8 .normal true := rfl
  rw [hprocess] at hkey
  refine ⟨fun before f after e hfs hb hf => ?_, fun hpass => ⟨fun hbig => ?_, fun hsmall => ⟨fun hrooms hfits => ?_,
    fun hwait => ?_⟩⟩⟩
  · have hfault : st.sheet.firstFault s.classes st.sheet.fields = some (f, e) := by
      rw [hsheet, hfs]
      exact Sheet.firstFault_some before after hb hf
    rw [State.release_error s n _ _ _ (Station.releaseChecks_fault hedited _ hfault)] at hkey
    refine ⟨_, hkey, ?_⟩
    subst hst
    exact Station.failRelease_attached (by exact hl) f e
  · have hclean : st.sheet.firstFault s.classes st.sheet.fields = none := by
      rw [hsheet]
      exact Sheet.firstFault_none hpass
    have hchecks := Station.releaseChecks_size hedited s.classes hclean
    rw [if_pos (by rw [hsheet]; exact hbig)] at hchecks
    rw [hkey, State.release_error s n _ _ _ hchecks, Station.enterHeld_attached hlink]
    subst hst
    rfl
  · have hclean : st.sheet.firstFault s.classes st.sheet.fields = none := by
      rw [hsheet]
      exact Sheet.firstFault_none hpass
    have hchecks := Station.releaseChecks_size hedited s.classes hclean
    rw [if_neg (by rw [hsheet]; exact Nat.not_lt.mpr hsmall)] at hchecks
    rw [hkey, State.release_ok s n _ _ _ hchecks,
      State.placeRelease_queued s n _ _ _ hrooms (by rw [hsheet]; exact hfits)]
    subst hst
    rfl
  · have hclean : st.sheet.firstFault s.classes st.sheet.fields = none := by
      rw [hsheet]
      exact Sheet.firstFault_none hpass
    have hchecks := Station.releaseChecks_size hedited s.classes hclean
    rw [if_neg (by rw [hsheet]; exact Nat.not_lt.mpr hsmall)] at hchecks
    rw [hkey, State.release_ok s n _ _ _ hchecks, State.placeRelease_waits s n _ _ _ (by rw [hsheet]; exact hwait)]
    subst hst
    rfl

/-! ### Closed scans (R117 to R122) -/

section
variable {sh : Sheet} {tu : Vector ClassRec 15} {sc : Scan}

/-- R119: a scan that its field's length or class rules out finds no field. -/
theorem Sheet.scanField_rejected (h : sc.overflow = true ∨ ∀ f ∈ sh.fields, f.isInput = true → f.covers sh.cursor = true →
    f.length < sc.buffer.length ∨ ∃ c ∈ sc.buffer,
      (classRec tu f.props.cls).permitsChar ((classRec tu f.props.cls).foldChar c) = false) :
    sh.scanField tu sc = none := by
  unfold Sheet.scanField
  cases hin : sh.inputAt sh.cursor with
  | none => rfl
  | some f =>
    obtain ⟨hf, hi, hc⟩ := Sheet.inputAt_some hin
    have hno : (!sc.overflow && decide (sc.buffer.length ≤ f.length) && sc.buffer.all fun c =>
        (classRec tu f.props.cls).permitsChar ((classRec tu f.props.cls).foldChar c)) = false := by
      rw [Bool.eq_false_iff, ne_eq, Bool.and_eq_true, Bool.and_eq_true, Bool.not_eq_true', decide_eq_true_eq, List.all_eq_true]
      rintro ⟨⟨hflow, hlen⟩, hall⟩
      rcases h with h | h
      · exact absurd (h.symm.trans hflow) (by decide)
      · rcases h f hf hi hc with hlong | ⟨c, hc, hbad⟩
        · omega
        · exact absurd ((hall c hc).symm.trans hbad) (by decide)
    simp only [Option.filter, hno]
    rfl

theorem Sheet.scanField_accepted (h : sh.FieldsSound) {f : Field} (hf : f ∈ sh.fields) (hi : f.isInput = true)
    (hc : f.covers sh.cursor = true) (hflow : sc.overflow = false) (hlen : sc.buffer.length ≤ f.length)
    (hall : ∀ c ∈ sc.buffer,
      (classRec tu f.props.cls).permitsChar ((classRec tu f.props.cls).foldChar c) = true) :
    sh.scanField tu sc = some f := by
  have hyes : (!sc.overflow && decide (sc.buffer.length ≤ f.length) && sc.buffer.all fun c =>
      (classRec tu f.props.cls).permitsChar ((classRec tu f.props.cls).foldChar c)) = true := by
    rw [hflow, decide_eq_true hlen, List.all_eq_true.mpr hall]
    rfl
  unfold Sheet.scanField
  rw [Sheet.inputAt_of_covers h hf hi hc]
  simp only [Option.filter, hyes]
  rfl

end

theorem Station.dropScan_attached {st : Station} (hl : st.link = .attached) {sc : Scan} (h : st.scan = some sc) :
    st.dropScan = { st with scan := none, dr := { st.dr with stale := st.dr.stale.set 24 true } } := by
  unfold Station.dropScan
  rw [h, if_pos (by rfl)]
  exact Station.markIndicator_attached (st := { st with scan := none }) hl

/-- R89: an empty type-ahead queue replays nothing. -/
theorem State.replay_empty (s : State) (n : StationIx) {st : Station} (h : st.typeAhead = []) :
    (s.setStation n st).replay n = s.setStation n st := by
  unfold State.replay
  rw [State.station_setStation_same, h]
  rfl

/-- R117: the expiry of the gap timer closes the scan. -/
theorem exec_gapTimerExpiry (n : StationIx) (s : State) : exec (.gapTimerExpiry n) s = .next (s.closeScan n) := rfl

section
variable {s : State} {n : StationIx} {sc : Scan} (hl : (s.station n).link = .attached)
  (hopen : (s.station n).scan = some sc)
include hl hopen

/-- An ATTACHED station with its scan dropped. -/
theorem State.closeScan_attached : s.closeScan n =
    ((s.setStation n { s.station n with
        scan := none
        dr := { (s.station n).dr with stale := (s.station n).dr.stale.set 24 true } }).takeScan n sc).replay n := by
  unfold State.closeScan
  rw [hopen]
  dsimp only
  rw [State.onStation_eq, Station.dropScan_attached hl hopen]

/-- R121: a rejected scan. -/
theorem State.closeScan_rejected (h : (s.station n).sheet.scanField s.classes sc = none) : s.closeScan n =
    s.setStation n
      { s.station n with
          scan := none, input := .held, error := some .scanReject, rep := none, typeAhead := []
          scanRejects := (s.station n).scanRejects + 1
          dr := { (s.station n).dr with alarm := true, stale := (s.station n).dr.stale.set 24 true } } := by
  rw [State.closeScan_attached hl hopen]
  generalize hst : ({ s.station n with
    scan := none, dr := { (s.station n).dr with stale := (s.station n).dr.stale.set 24 true } } : Station) = st
  have hfield : ((s.setStation n st).station n).sheet.scanField (s.setStation n st).classes sc = none := by
    rw [State.station_setStation_same, ← hst]
    exact h
  have htake : (s.setStation n st).takeScan n sc = s.setStation n st.rejectScan := by
    unfold State.takeScan
    rw [hfield]
    exact State.onStation_setStation s n st _
  have hlink : st.link = .attached := by rw [← hst]; exact hl
  have hheld : st.rejectScan = _ :=
    Station.enterHeld_attached (st := { st with scanRejects := st.scanRejects + 1 }) hlink .scanReject
  rw [htake, hheld, State.replay_empty _ _ rfl]
  subst hst
  simp only [Vector.set_set]

end

/-- R119, R120: an accepted scan placed: the field's content, and the station apart from the marks. -/
theorem Station.placeScan_spec {st : Station} (h : st.sheet.Sound) (tu : Vector ClassRec 15) {f : Field} {sc : Scan}
    (hlen : sc.buffer.length ≤ f.length) :
    let st' := st.placeScan tu f sc
    st' = { st with
              sheet := { st.sheet with
                cells := st'.sheet.cells, edited := some f.number
                fields := st.sheet.fields.map fun g => if g.number = f.number then { g with touched := true } else g }
              dr := { st.dr with stale := st'.dr.stale } } ∧
      st'.sheet.content f = scanContent (classRec tu f.props.cls) f sc ∧
      ∀ a, f.covers a = false → st'.sheet.cell a = st.sheet.cell a := by
  intro st'
  have hlength : (scanContent (classRec tu f.props.cls) f sc).length = f.length := by
    unfold scanContent
    simp
    omega
  have hcells : st'.sheet.cells = (st.putCells f.start (scanContent (classRec tu f.props.cls) f sc)).sheet.cells := rfl
  obtain ⟨hcontent, hrest⟩ := Station.content_putCells h f hlength
  refine ⟨?_, (Sheet.content_congr hcells f).trans hcontent, fun a ha => (Sheet.cell_congr hcells a).trans (hrest a ha)⟩
  have hput : st' = (st.putCells f.start (scanContent (classRec tu f.props.cls) f sc)).markEdited f := rfl
  rw [hcells, hput]
  generalize scanContent (classRec tu f.props.cls) f sc = chars
  have hdr := st.putCells_dr_eq f.start chars
  have heq := st.putCells_eq f.start chars
  generalize st.putCells f.start chars = written at hdr heq ⊢
  rw [heq]
  unfold Station.markEdited
  dsimp only
  rw [← hdr]
  rfl

/-- R111: a LEFT field is not rewritten. -/
theorem Station.passExit_left {st : Station} {f : Field} (h : f.props.justify = .left) :
    st.passExit f = st.setEdited none := by
  unfold Station.passExit Station.justifyField
  rw [if_pos (.inl h)]

/-- R119 to R122: an accepted scan whose value checks fail. -/
theorem State.takeScan_failed {s : State} {n : StationIx} {st : Station} {sc : Scan} {f : Field} {e : OpError}
    (h : st.sheet.scanField s.classes sc = some f)
    (hv : (st.placeScan s.classes f sc).sheet.valueChecks s.classes f = some e) :
    (s.setStation n st).takeScan n sc = s.setStation n ((st.placeScan s.classes f sc).failCheck f e) := by
  have hfield : ((s.setStation n st).station n).sheet.scanField (s.setStation n st).classes sc = some f := by
    rw [State.station_setStation_same]
    exact h
  have hchecks : (((s.setStation n st).station n).placeScan (s.setStation n st).classes f sc).sheet.valueChecks
      (s.setStation n st).classes f = some e := by
    rw [State.station_setStation_same]
    exact hv
  unfold State.takeScan
  rw [hfield]
  dsimp only
  rw [hchecks]
  dsimp only
  rw [State.setStation_setStation, State.station_setStation_same]
  rfl

/-- R119 to R122: an accepted scan whose value checks pass, with neither advance nor scan release. -/
theorem State.takeScan_passed {s : State} {n : StationIx} {st : Station} {sc : Scan} {f : Field}
    (h : st.sheet.scanField s.classes sc = some f)
    (hv : (st.placeScan s.classes f sc).sheet.valueChecks s.classes f = none)
    (hadvance : st.profile.advance = false) (hcode : st.profile.releaseCode = 0x00#8) :
    (s.setStation n st).takeScan n sc = s.setStation n ((st.placeScan s.classes f sc).passExit f) := by
  have hfield : ((s.setStation n st).station n).sheet.scanField (s.setStation n st).classes sc = some f := by
    rw [State.station_setStation_same]
    exact h
  have hchecks : (((s.setStation n st).station n).placeScan (s.setStation n st).classes f sc).sheet.valueChecks
      (s.setStation n st).classes f = none := by
    rw [State.station_setStation_same]
    exact hv
  have hprofile : ((st.placeScan s.classes f sc).passExit f).profile = st.profile :=
    (Station.Edits.passExit _ f).profile.trans (Station.Edits.placeScan st _ f sc).profile
  have hstay : ((st.placeScan s.classes f sc).passExit f).scanAdvance s.classes =
      (st.placeScan s.classes f sc).passExit f := by
    unfold Station.scanAdvance
    rw [hprofile, hadvance]
    rfl
  have hnorelease : (s.setStation n ((st.placeScan s.classes f sc).passExit f)).scanRelease n =
      s.setStation n ((st.placeScan s.classes f sc).passExit f) := by
    unfold State.scanRelease
    rw [State.station_setStation_same, hprofile, if_pos hcode]
  unfold State.takeScan
  rw [hfield]
  dsimp only
  rw [hchecks]
  dsimp only
  rw [State.setStation_setStation, State.station_setStation_same]
  exact (congrArg (fun st => (s.setStation n st).scanRelease n) hstay).trans hnorelease

/-- Settles O50: rejected, failed, passed. -/
theorem scanClosesIntoField : Obligations.ScanClosesIntoField := by
  intro s n sc hsheets hl hi hopen hta
  dsimp only
  obtain ⟨-, -, -, -, -, hfields, -⟩ := id (hsheets n)
  refine ⟨fun hs => ?_, fun hbad => ?_, fun f hf hin hc hflow hlen hall => ?_⟩
  · have hsuffix : (s.station n).heard.isSuffix (s.station n).profile.suffix = true := Station.isSuffix_iff.mpr ⟨hs, rfl⟩
    rw [exec_scanch_attached hl, exec_gapTimerExpiry, State.scanChar_open s n (by exact hopen), hsuffix, if_pos rfl]
  · rw [exec_gapTimerExpiry, State.closeScan_rejected hl hopen (Sheet.scanField_rejected hbad), hta]
  · have hfield := Sheet.scanField_accepted (tu := s.classes) hfields hf hin hc hflow hlen hall
    rw [exec_gapTimerExpiry, State.closeScan_attached hl hopen]
    generalize hst : ({ s.station n with
      scan := none, dr := { (s.station n).dr with stale := (s.station n).dr.stale.set 24 true } } : Station) = st
    have hsheet : st.sheet = (s.station n).sheet := by rw [← hst]
    have hplaced := Station.placeScan_spec (st := st) (by rw [hsheet]; exact hsheets n) s.classes hlen
    rw [← hsheet] at hfield
    obtain ⟨hplace, hcontent, hrest⟩ := hplaced
    have hchecks : (st.placeScan s.classes f sc).sheet.valueChecks s.classes f =
        valueChecks (classRec s.classes f.props.cls) f.props.fill (scanContent (classRec s.classes f.props.cls) f sc) :=
      congrArg (valueChecks _ _) hcontent
    have hqueue : (st.placeScan s.classes f sc).typeAhead = [] := by
      rw [(Station.Edits.placeScan st _ f sc).typeAhead, ← hst]
      exact hta
    have hlink : (st.placeScan s.classes f sc).link = .attached := by
      rw [(Station.Edits.placeScan st _ f sc).link, ← hst]
      exact hl
    refine ⟨fun e hv => ?_, fun hv hjust hadvance hcode => ?_⟩
    · rw [State.takeScan_failed hfield (hchecks.trans hv), State.replay_empty _ _ (by exact Station.enterHeld_typeAhead _ e)]
      generalize st.placeScan s.classes f sc = placed at *
      have hfailed := Station.failCheck_attached hlink f e
      have hcells : (placed.failCheck f e).sheet.cells = placed.sheet.cells := by rw [hfailed]
      refine ⟨_, rfl, ?_, (Sheet.content_congr hcells f).trans hcontent,
        fun a ha => (Sheet.cell_congr hcells a).trans ((hrest a ha).trans (Sheet.cell_congr (by rw [hsheet]) a))⟩
      rw [hcells, hta]
      refine hfailed.trans ?_
      generalize (placed.failCheck f e).dr.stale = stale
      rw [hplace, ← hst]
      rfl
    · have hpassed := Station.passExit_left (st := st.placeScan s.classes f sc) hjust
      rw [State.takeScan_passed hfield (hchecks.trans hv) (by rw [← hst]; exact hadvance) (by rw [← hst]; exact hcode),
        hpassed, State.replay_empty _ _ (by exact hqueue)]
      generalize st.placeScan s.classes f sc = placed at *
      refine ⟨_, rfl, ?_, hcontent, fun a ha => (hrest a ha).trans (Sheet.cell_congr (by rw [hsheet]) a)⟩
      unfold Station.setEdited
      dsimp only
      rw [hplace, ← hst]

end Sys2Proof.Machine
end

section
/-! SUPPORT. The management requests that set something (R180, R183 to R185, R190; O20, O23 to O26). -/

namespace Sys2Proof.Machine

/-! ### Wrong lengths (R180) -/

section
variable (s : State) {payload : List Byte}

/-- R180: the kinds whose payload is empty. -/
theorem State.handle_badLength_empty (h : payload ≠ []) {k : DownKind}
    (hk : k ∈ [DownKind.status, .attentionRead, .countersRead, .directoryRead, .restart]) :
    s.handle k 0x00#8 payload = (badLength payload, s) := by
  simp only [List.mem_cons, List.not_mem_nil, or_false] at hk
  rcases hk with rfl | rfl | rfl | rfl | rfl
  · exact if_neg h
  · exact if_neg h
  · exact if_neg h
  · exact if_neg h
  · exact if_neg h

theorem State.handle_badLength_one (h : payload.length ≠ 1) :
    s.handle .stationRead 0x00#8 payload = (badLength payload, s) := by
  change handleStationRead payload s = _
  unfold handleStationRead
  split
  · exact absurd rfl h
  · rfl

/-- R180: the kinds whose payload is two bytes. -/
theorem State.handle_badLength_two (h : payload.length ≠ 2) {k : DownKind}
    (hk : k ∈ [DownKind.attentionClear, .attentionMask]) : s.handle k 0x00#8 payload = (badLength payload, s) := by
  simp only [List.mem_cons, List.not_mem_nil, or_false] at hk
  rcases hk with rfl | rfl
  · change handleAttentionClear payload s = _
    unfold handleAttentionClear
    split
    · exact absurd rfl h
    · rfl
  · change handleAttentionMask payload s = _
    unfold handleAttentionMask
    split
    · exact absurd rfl h
    · rfl

theorem State.handle_badLength_setup (h : payload.length ≠ 12) :
    s.handle .stationSetup 0x00#8 payload = (badLength payload, s) := by
  change handleStationSetup payload s = _
  unfold handleStationSetup
  split
  · exact absurd rfl h
  · rfl

theorem State.handle_badLength_class (h : payload.length ≠ 24) :
    s.handle .classSet 0x00#8 payload = (badLength payload, s) := by
  change handleClassSet payload s = _
  unfold handleClassSet
  split
  · rename_i permits
    exact if_neg fun hp : permits.length = 12 => h (by simp [hp])
  · rfl

theorem State.handle_badLength_keymap
    (h : ∀ m plane first count rest, payload = m :: plane :: first :: count :: rest → rest.length ≠ 2 * count.toNat) :
    s.handle .keymapSet 0x00#8 payload = (badLength payload, s) := by
  change handleKeymapSet payload s = _
  unfold handleKeymapSet
  split
  · exact if_neg (h _ _ _ _ _ rfl)
  · rfl

end

/-- Settles O20: the layout of each kind. -/
theorem managementLengthRefused : Obligations.ManagementLengthRefused := by
  intro s payload hs hlen
  refine ⟨fun h k hk => ?_, fun h => ?_, fun h k hk => ?_, fun h => ?_, fun h => ?_, fun h => ?_, fun h => ?_⟩
  · exact exec_refuses hs k hlen (State.handle_badLength_empty _ h hk)
  · exact exec_refuses hs .stationRead hlen (State.handle_badLength_one _ h)
  · exact exec_refuses hs k hlen (State.handle_badLength_two _ h hk)
  · exact exec_refuses hs .stationSetup hlen (State.handle_badLength_setup _ h)
  · exact exec_refuses hs .classSet hlen (State.handle_badLength_class _ h)
  · exact exec_refuses hs .keymapSet hlen (State.handle_badLength_keymap _ h)
  · exact exec_refuses hs .broadcastMessage hlen (if_pos h)

/-! ### Numbers and their bits -/

theorem number_append (l : List Byte) (b : Byte) : number (l ++ [b]) = number l * 256 + b.toNat := by
  simp [number]

theorem number_bytes4 {n : Nat} (h : n < 2 ^ 32) : number (bytes2 (n / 65536) ++ bytes2 (n % 65536)) = n := by
  simp [number, bytes2]
  omega

/-- Bit k of byte i of a number. -/
theorem number_testBit (l : List Byte) {i k : Nat} (hi : i < l.length) (hk : k < 8) :
    (number l).testBit (8 * (l.length - 1 - i) + k) = (l.getD i 0x00#8).getLsbD k := by
  induction l using List.reverseRecOn with
  | nil => exact absurd hi (Nat.not_lt_zero _)
  | append_singleton l b ih =>
    have hsum : number (l ++ [b]) = 2 ^ 8 * number l + b.toNat := by rw [number_append]; omega
    have hbit := Nat.testBit_two_pow_mul_add (number l) b.isLt
    rw [List.length_append, List.length_singleton] at hi ⊢
    rw [hsum, hbit]
    by_cases hlast : i = l.length
    · subst hlast
      have hpos : 8 * (l.length + 1 - 1 - l.length) + k = k := by omega
      rw [hpos, if_pos hk]
      simp [BitVec.getLsbD]
    · have hin : i < l.length := by omega
      rw [if_neg (by omega), List.getD_append _ _ _ _ hin, ← ih hin]
      congr 1
      omega

/-! ### CLASS SET (R184) -/

theorem State.handle_classSet (s : State) (payload : List Byte) :
    s.handle .classSet 0x00#8 payload = handleClassSet payload s := rfl

/-- R184: the value checks of CLASS SET, in order. -/
theorem classFault_eq (cls chars rule : Byte) (low high : Nat) :
    (cls.toNat = 0 ∨ 15 < cls.toNat → classFault cls chars rule low high = some (refuse .badParameter 0 cls.toNat)) ∧
    (1 ≤ cls.toNat ∧ cls.toNat ≤ 15 →
      (4 < chars.toNat → classFault cls chars rule low high = some (refuse .badParameter 1 chars.toNat)) ∧
      (chars.toNat ≤ 4 →
        (2 < rule.toNat → classFault cls chars rule low high = some (refuse .badParameter 2 rule.toNat)) ∧
        (rule.toNat ≤ 2 →
          (999999999 < low → classFault cls chars rule low high = some (refuse .badParameter 3 0)) ∧
          (low ≤ 999999999 →
            (999999999 < high → classFault cls chars rule low high = some (refuse .badParameter 3 1)) ∧
            (high ≤ 999999999 → classFault cls chars rule low high = none))))) := by
  unfold classFault maxBound
  refine ⟨fun hc => if_pos (by omega), fun hc => ?_⟩
  rw [if_neg (by omega)]
  refine ⟨fun hs => if_pos hs, fun hs => ?_⟩
  rw [if_neg (by omega)]
  refine ⟨fun hr => if_pos hr, fun hr => ?_⟩
  rw [if_neg (by omega)]
  refine ⟨fun hl => if_pos hl, fun hl => ?_⟩
  rw [if_neg (by omega)]
  exact ⟨fun hh => if_pos hh, fun hh => if_neg (by omega)⟩

theorem charSetOf_getD {b : Byte} (h : b.toNat ≤ 4) :
    (charSetOf b).getD .any = [CharSet.any, .digits, .letters, .alnum, .listed].getD b.toNat .any := by
  have hcases : b.toNat = 0 ∨ b.toNat = 1 ∨ b.toNat = 2 ∨ b.toNat = 3 ∨ b.toNat = 4 := by omega
  unfold charSetOf
  rcases hcases with h | h | h | h | h
  · rw [h]; rfl
  · rw [h]; rfl
  · rw [h]; rfl
  · rw [h]; rfl
  · rw [h]; rfl

theorem valueRuleOf_getD {b : Byte} (h : b.toNat ≤ 2) :
    (valueRuleOf b).getD .none = [ValueRule.none, .mod10, .range].getD b.toNat .none := by
  have hcases : b.toNat = 0 ∨ b.toNat = 1 ∨ b.toNat = 2 := by omega
  unfold valueRuleOf
  rcases hcases with h | h | h
  · rw [h]; rfl
  · rw [h]; rfl
  · rw [h]; rfl

theorem flagByte_eq (b : Byte) : flagByte b = decide (b ≠ 0x00#8) := by
  by_cases h : b = 0x00#8
  · simp [flagByte, h]
  · simp [flagByte, h]

/-- R184: the permission map carried, bit by bit. -/
theorem classRecOf_mapPermits (chars fold rule : Byte) (low high : Nat) {permits : List Byte}
    (hlen : permits.length = 12) {i j : Nat} (hi : i < 12) (hj : j < 8) :
    (classRecOf chars fold rule low high permits).mapPermits (byte1 (0x20 + 8 * i + j)) =
      (permits.getD i 0x00#8).getLsbD (7 - j) := by
  have hcode : (byte1 (0x20 + 8 * i + j)).toNat = 0x20 + 8 * i + j := by
    rw [byte1, BitVec.toNat_ofNat]
    omega
  have hbit := number_testBit permits (i := i) (k := 7 - j) (by omega) (by omega)
  have hpos : 95 - (0x20 + 8 * i + j - 0x20) = 8 * (permits.length - 1 - i) + (7 - j) := by omega
  have hin : 8 * (permits.length - 1 - i) + (7 - j) < 96 := by omega
  unfold ClassRec.mapPermits
  rw [hcode, decide_eq_true (by omega), Bool.true_and, hpos, ← hbit]
  change (BitVec.ofNat 96 (number permits)).getLsbD _ = _
  rw [BitVec.getLsbD_ofNat, decide_eq_true hin, Bool.true_and]

/-- R184: one class record replaced. -/
theorem State.setClass_eq (s : State) {k : Nat} (hk : 1 ≤ k ∧ k ≤ 15) (r : ClassRec) :
    ∃ classes, s.setClass k r = { s with classes := classes } ∧
      ∀ j : Fin 16, classRec classes j = if j.1 = k then r else classRec s.classes j := by
  have hlt : k - 1 < 15 := by omega
  refine ⟨s.classes.set (k - 1) r hlt, dif_pos hlt, fun j => ?_⟩
  unfold classRec
  by_cases hj : j.1 = 0
  · rw [dif_pos hj, dif_pos hj, if_neg (by omega)]
  · rw [dif_neg hj, dif_neg hj, Vector.getElem_set]
    by_cases hjk : j.1 = k
    · rw [if_pos (by omega), if_pos hjk]
    · rw [if_neg (by omega), if_neg hjk]

/-- R184: a CLASS SET by the outcome of its checks. -/
theorem State.handle_classSet_eq (s : State) (cls chars fold rule : Byte) {low high : Nat} {permits : List Byte}
    (hlow : low < 2 ^ 32) (hhigh : high < 2 ^ 32) (hlen : permits.length = 12) :
    s.handle .classSet 0x00#8 ([cls, chars, fold, rule] ++ bytes2 (low / 65536) ++ bytes2 (low % 65536) ++
        bytes2 (high / 65536) ++ bytes2 (high % 65536) ++ permits) =
      (classFault cls chars rule low high).elim
        (accept [], s.setClass cls.toNat (classRecOf chars fold rule low high permits)) fun r => (r, s) := by
  have hlow4 := number_bytes4 hlow
  have hhigh4 := number_bytes4 hhigh
  unfold bytes2 at hlow4 hhigh4 ⊢
  rw [State.handle_classSet]
  unfold handleClassSet
  dsimp only [List.cons_append, List.nil_append] at hlow4 hhigh4 ⊢
  rw [if_pos hlen, hlow4, hhigh4]
  cases classFault cls chars rule low high <;> rfl

/-- Settles O23: the checks in order, and the record replaced. -/
theorem classSetReplacesRecord : Obligations.ClassSetReplacesRecord := by
  intro s cls chars fold rule low high permits hs hlow hhigh hlen
  dsimp only
  have hpayload : ([cls, chars, fold, rule] ++ bytes2 (low / 65536) ++ bytes2 (low % 65536) ++ bytes2 (high / 65536) ++
      bytes2 (high % 65536) ++ permits).length ≤ 2048 := by simp [hlen]
  have hhandle := s.byteSeen.hunt.handle_classSet_eq cls chars fold rule hlow hhigh hlen
  obtain ⟨hcls, hrest⟩ := classFault_eq cls chars rule low high
  generalize [cls, chars, fold, rule] ++ bytes2 (low / 65536) ++ bytes2 (low % 65536) ++ bytes2 (high / 65536) ++
    bytes2 (high % 65536) ++ permits = payload at hpayload hhandle ⊢
  have hrefuses {subcode detail : Nat}
      (h : classFault cls chars rule low high = some (refuse .badParameter subcode detail)) :
      exec (.classSet 0x00#8 payload) s = .next (s.withRefusal 0x00#8 0x0E#8 (byte1 subcode) detail) := by
    rw [h] at hhandle
    exact exec_refuses hs .classSet hpayload hhandle
  refine ⟨fun hc => hrefuses (hcls hc), fun hc => ?_⟩
  obtain ⟨hchars, hrest⟩ := hrest hc
  refine ⟨fun h => hrefuses (hchars h), fun hset => ?_⟩
  obtain ⟨hrule, hrest⟩ := hrest hset
  refine ⟨fun h => hrefuses (hrule h), fun hval => ?_⟩
  obtain ⟨hlo, hrest⟩ := hrest hval
  refine ⟨fun h => hrefuses (hlo h), fun hlo => ?_⟩
  obtain ⟨hhi, hnone⟩ := hrest hlo
  refine ⟨fun h => hrefuses (hhi h), fun hhi => ?_⟩
  obtain ⟨classes, hclasses, hread⟩ := s.setClass_eq hc (classRecOf chars fold rule low high permits)
  have hset' : s.byteSeen.hunt.setClass cls.toNat (classRecOf chars fold rule low high permits) =
      (s.setClass cls.toNat (classRecOf chars fold rule low high permits)).byteSeen.hunt := by
    unfold State.setClass
    split <;> rfl
  refine ⟨classes, classRecOf chars fold rule low high permits, ?_, hread, charSetOf_getD hset, flagByte_eq fold,
    valueRuleOf_getD hval, rfl, rfl, fun i hi j hj => classRecOf_mapPermits _ _ _ _ _ hlen hi hj⟩
  rw [← hclasses]
  exact exec_accepts (t := s.setClass cls.toNat (classRecOf chars fold rule low high permits)) hs .classSet hpayload
    (hhandle.trans (by rw [hnone hhi, ← hset']; rfl))

/-! ### KEYMAP SET (R185) -/

/-- The bytes of a run of entries. -/
def entryBytes (entries : List (Byte × Byte)) : List Byte := entries.flatMap fun e => [e.1, e.2]

theorem length_entryBytes (entries : List (Byte × Byte)) : (entryBytes entries).length = 2 * entries.length := by
  induction entries with
  | nil => rfl
  | cons e es ih =>
    have hcons : entryBytes (e :: es) = e.1 :: e.2 :: entryBytes es := rfl
    rw [hcons, List.length_cons, List.length_cons, ih, List.length_cons]
    omega

/-- The two bytes of entry i. -/
theorem getElem_entryBytes (entries : List (Byte × Byte)) {i : Nat} (hi : i < entries.length) :
    (entryBytes entries)[2 * i]? = some (entries.getD i (0x00#8, 0x00#8)).1 ∧
      (entryBytes entries)[2 * i + 1]? = some (entries.getD i (0x00#8, 0x00#8)).2 := by
  induction entries generalizing i with
  | nil => exact absurd hi (Nat.not_lt_zero _)
  | cons e es ih =>
    cases i with
    | zero => exact ⟨rfl, rfl⟩
    | succ i => exact ih (Nat.lt_of_succ_lt_succ hi)

theorem byte1_toNat_of_lt {k : Nat} (h : k < 256) : (byte1 k).toNat = k := by
  rw [byte1, BitVec.toNat_ofNat]
  exact Nat.mod_eq_of_lt h

/-- R185: the entries of a run replaced, and every other entry as it was. -/
theorem State.mapEntry_setEntries {s : State} (h : s.KeyMapsSound) {m plane first : Nat} (hm : 1 ≤ m ∧ m ≤ 3)
    (hplane : plane ≤ 3) (entries : List (Byte × Byte)) (hrun : first + entries.length - 1 ≤ 127) (hne : entries ≠ [])
    (m' : Fin 4) {plane' code : Nat} (hplane' : plane' < 4) (hcode : code < 128) :
    (s.setEntries (mapAddress m plane first) (entryBytes entries)).mapEntry m' plane' code =
      if m'.1 = m ∧ plane' = plane ∧ first ≤ code ∧ code < first + entries.length
      then entries.getD (code - first) (0x00#8, 0x00#8) else s.mapEntry m' plane' code := by
  have hpos : 0 < entries.length := List.length_pos_iff.mpr hne
  obtain ⟨hwf, -⟩ := h
  unfold State.mapEntry
  by_cases hzero : m' = 0
  · subst hzero
    have hno : ¬ ((0 : Fin 4).1 = m ∧ plane' = plane ∧ first ≤ code ∧ code < first + entries.length) := by
      have hfst : (0 : Fin 4).1 = 0 := rfl
      omega
    rw [if_pos rfl, if_pos rfl, if_neg hno]
  · rw [if_neg hzero, if_neg hzero]
    by_cases hin : m'.1 = m ∧ plane' = plane ∧ first ≤ code ∧ code < first + entries.length
    · obtain ⟨rfl, rfl, hlow, hhigh⟩ := id hin
      have hi : code - first < entries.length := by omega
      obtain ⟨hfst, hsnd⟩ := getElem_entryBytes entries hi
      have haddr : mapAddress m'.1 plane' code = mapAddress m'.1 plane' first + 2 * (code - first) := by
        unfold mapAddress
        omega
      have hlen := length_entryBytes entries
      rw [if_pos hin, haddr]
      refine Prod.ext ?_ ?_
      · have hread := Memory.read_writeList_inside (d := mapDefault) s.keyMaps (mapAddress m'.1 plane' first)
          (2 * (code - first)) (entryBytes entries) hwf (by omega)
        exact hread.trans (Option.some.inj ((List.getElem?_eq_getElem (by omega)).symm.trans hfst))
      · have hread := Memory.read_writeList_inside (d := mapDefault) s.keyMaps (mapAddress m'.1 plane' first)
          (2 * (code - first) + 1) (entryBytes entries) hwf (by omega)
        exact hread.trans (Option.some.inj ((List.getElem?_eq_getElem (by omega)).symm.trans hsnd))
    · have hm' := m'.2
      have hout : mapAddress m'.1 plane' code + 1 < mapAddress m plane first ∨
          mapAddress m plane first + (entryBytes entries).length ≤ mapAddress m'.1 plane' code := by
        rw [length_entryBytes]
        unfold mapAddress
        omega
      rw [if_neg hin]
      refine Prod.ext ?_ ?_
      · exact Memory.read_writeList_outside _ _ _ _ (by omega)
      · exact Memory.read_writeList_outside _ _ _ _ (by omega)

theorem State.handle_keymapSet (s : State) (payload : List Byte) :
    s.handle .keymapSet 0x00#8 payload = handleKeymapSet payload s := rfl

/-- Settles O24: the checks in order, and the run replaced. -/
theorem keymapSetReplacesRun : Obligations.KeymapSetReplacesRun := by
  intro s m plane first entries hs hmaps hlen
  dsimp only
  have hcount : (byte1 entries.length).toNat = entries.length := byte1_toNat_of_lt hlen
  have hbytes := length_entryBytes entries
  have hpayload : ([m, plane, first, byte1 entries.length] ++ entryBytes entries).length ≤ 2048 := by
    rw [List.length_append, hbytes]
    simp only [List.length_cons, List.length_nil]
    omega
  have hhandle : s.byteSeen.hunt.handle .keymapSet 0x00#8 ([m, plane, first, byte1 entries.length] ++ entryBytes entries) =
      if m.toNat < 1 ∨ 3 < m.toNat then (refuse .badParameter 0 m.toNat, s.byteSeen.hunt)
      else if 3 < plane.toNat then (refuse .badParameter 1 plane.toNat, s.byteSeen.hunt)
      else if entries.length < 1 ∨ first.toNat < 1 ∨ 127 < first.toNat + entries.length - 1 then
        (refuse .badParameter 2 first.toNat, s.byteSeen.hunt)
      else
        (accept [], s.byteSeen.hunt.setEntries (mapAddress m.toNat plane.toNat first.toNat) (entryBytes entries)) := by
    rw [State.handle_keymapSet]
    unfold handleKeymapSet
    dsimp only [List.cons_append, List.nil_append]
    rw [hcount, if_pos hbytes]
  refine ⟨fun hm => ?_, fun hm => ⟨fun hp => ?_, fun hp => ⟨fun hbad => ?_, fun hne hf hrun => ?_⟩⟩⟩
  · rw [if_pos (by omega)] at hhandle
    exact exec_refuses hs .keymapSet hpayload hhandle
  · rw [if_neg (by omega), if_pos hp] at hhandle
    exact exec_refuses hs .keymapSet hpayload hhandle
  · have hzero : entries = [] → entries.length < 1 := fun h => by rw [h]; exact Nat.one_pos
    rw [if_neg (by omega), if_neg (by omega),
      if_pos (hbad.imp hzero (Or.imp (fun h => by omega) id))] at hhandle
    exact exec_refuses hs .keymapSet hpayload hhandle
  · have hpos : 0 < entries.length := List.length_pos_iff.mpr hne
    rw [if_neg (by omega), if_neg (by omega), if_neg (by omega)] at hhandle
    exact ⟨_, exec_accepts (t := s.setEntries (mapAddress m.toNat plane.toNat first.toNat) (entryBytes entries)) hs
      .keymapSet hpayload hhandle, fun m' plane' code hp' hc =>
        State.mapEntry_setEntries hmaps hm hp entries hrun hne m' hp' hc⟩

/-! ### BROADCAST MESSAGE (R44, R190) -/

/-- R44: a message area set: the characters, then blanks. -/
theorem messageArea_get (chars : List Byte) (i : Fin 40) :
    (messageArea (chars.map toPrintable))[i] =
      if i.1 < chars.length then toPrintable (chars.getD i.1 0x20#8) else 0x20#8 := by
  have hget : (messageArea (chars.map toPrintable))[i] = (chars.map toPrintable).getD i.1 blankChar := by
    simp [messageArea]
  rw [hget]
  split
  · rename_i hi
    simp [hi]
  · rename_i hi
    rw [List.getD_eq_default _ _ (by simpa using hi)]
    rfl

/-- R44: setting the message area changes nothing else but the mark of line 24. -/
theorem Station.setMessage_spec (st : Station) (chars : List Byte) :
    (st.setMessage chars).message = messageArea chars ∧
      st.setMessage chars = { st with message := (st.setMessage chars).message, dr := (st.setMessage chars).dr } ∧
      (st.setMessage chars).dr = { st.dr with stale := (st.setMessage chars).dr.stale } ∧
      ∀ i : Fin 25, (st.setMessage chars).dr.stale[i] =
        (st.dr.stale[i] || (st.link == .attached && decide (i.1 = 24))) := by
  unfold Station.setMessage Station.markIndicator
  generalize messageArea chars = area
  have heq := Station.markLines_eq { st with message := area } fun line => line == 24
  refine ⟨by rw [heq], ?_, Station.markLines_dr_eq { st with message := area } _, fun i => ?_⟩
  · conv_lhs => rw [heq]
    rw [Station.markLines_message]
  · rw [Station.markLines_stale]
    rfl

/-- Settles O25: station by station. -/
theorem broadcastReachesEnabledStations : Obligations.BroadcastReachesEnabledStations := by
  intro s chars hs hlen
  have hcount : (s.stations.toList.filter Station.reached).length =
      ((List.finRange 12).filter fun n => (s.station n).link != LinkState.disabled).length := by
    rw [toList_eq_map_finRange, List.filter_map, List.length_map]
    rfl
  have hexec : exec (.broadcastMessage 0x00#8 chars) s = .next ((s.broadcast chars).withAnswer 0x00#8 .accept
      [byte1 (s.stations.toList.filter Station.reached).length, byte1 (substitutions chars)]) :=
    exec_accepts (t := s.broadcast chars) hs .broadcastMessage (by omega) (if_neg (by omega))
  refine ⟨_, hexec, ?_, fun n => ?_⟩
  · rw [← hcount]
    rfl
  · have hstation : ((s.broadcast chars).withAnswer 0x00#8 .accept
        [byte1 (s.stations.toList.filter Station.reached).length, byte1 (substitutions chars)]).station n = _ :=
      s.station_broadcast chars n
    have hreached : (s.station n).reached = true ↔ (s.station n).link ≠ .disabled := by simp [Station.reached]
    refine ⟨fun hd => ?_, fun hd => ?_⟩
    · exact hstation.trans (if_neg fun hr => hreached.mp hr hd)
    · have hset := hstation.trans (if_pos (hreached.mpr hd))
      obtain ⟨hmessage, hrest, hdr, hstale⟩ := (s.station n).setMessage_spec (chars.map toPrintable)
      rw [hset]
      refine ⟨fun i => ?_, hrest, hdr, hstale⟩
      rw [hmessage]
      exact messageArea_get chars i

/-! ### STATION SETUP (R28, R32, R183) -/

theorem State.handle_stationSetup (s : State) (payload : List Byte) :
    s.handle .stationSetup 0x00#8 payload = handleStationSetup payload s := rfl

theorem clamp_eq {low high : Nat} (h : low ≤ high) (n : Nat) :
    clamp low high n = if n < low then low else if high < n then high else n := by
  unfold clamp
  split
  · omega
  · split <;> omega

/-- R32: the profile carried is the one with its values clamped. -/
theorem profileOf_eq (enable : Byte) (keyMap : Fin 4) (delay period : Nat) (chatter suffix gap advance code : Byte) :
    profileOf enable keyMap delay period chatter suffix gap advance code =
      setupProfile (decide (enable ≠ 0x00#8)) keyMap delay period chatter suffix gap advance code := by
  unfold profileOf setupProfile
  rw [flagByte_eq, flagByte_eq, clamp_eq (by decide), clamp_eq (by decide), clamp_eq (by decide), clamp_eq (by decide)]
  simp only [Nat.not_lt_zero, if_false]

theorem length_setupPayload (n enable keyMap : Byte) (delay period : Nat) (chatter suffix gap advance code : Byte) :
    (setupPayload n enable keyMap delay period chatter suffix gap advance code).length ≤ 2048 := by
  have hlen : (setupPayload n enable keyMap delay period chatter suffix gap advance code).length = 12 := rfl
  rw [hlen]
  decide

section
variable (s : State) (enable keyMap : Byte) {delay period : Nat} (chatter suffix gap advance code : Byte)

/-- R183: a bad station number is refused. -/
theorem State.handle_setup_outside {k : Byte} (h : k.toNat = 0 ∨ 12 < k.toNat) :
    s.handle .stationSetup 0x00#8 (setupPayload k enable keyMap delay period chatter suffix gap advance code) =
      (refuse .badParameter 0 k.toNat, s) := by
  rw [State.handle_stationSetup]
  unfold setupPayload bytes2 handleStationSetup
  dsimp only [List.cons_append, List.nil_append]
  rw [stationOf_none (by omega)]

/-- R183: the checks of a STATION SETUP of a station 1..12. -/
theorem State.handle_setup (n : StationIx) (hdelay : delay < 65536) (hperiod : period < 65536) :
    s.handle .stationSetup 0x00#8
        (setupPayload (stationByte n) enable keyMap delay period chatter suffix gap advance code) =
      if h : keyMap.toNat < 4 then
        if 0xEF < code.toNat then (refuse .badParameter 2 code.toNat, s)
        else
          (accept [], s.setup n
            (setupProfile (decide (enable ≠ 0x00#8)) ⟨keyMap.toNat, h⟩ delay period chatter suffix gap advance code))
      else (refuse .badParameter 1 keyMap.toNat, s) := by
  have hd := number_bytes2 hdelay
  have hp := number_bytes2 hperiod
  rw [State.handle_stationSetup]
  unfold bytes2 at hd hp
  unfold setupPayload bytes2 handleStationSetup
  dsimp only [List.cons_append, List.nil_append]
  rw [stationOf_stationByte]
  simp only [hd, hp, profileOf_eq]

end

/-- R183: what a STATION SETUP does, by the enable carried and the link state. -/
theorem State.setup_enable {s : State} {n : StationIx} {p : Profile} (he : p.enable = true)
    (hl : (s.station n).link = .disabled) : s.setup n p = s.setStation n ((s.station n).enable p) := by
  unfold State.setup
  rw [he, hl]
  rfl

theorem State.setup_profile {s : State} {n : StationIx} {p : Profile}
    (h : p.enable = true ∧ (s.station n).link ≠ .disabled ∨ p.enable = false ∧ (s.station n).link = .disabled) :
    s.setup n p = s.setStation n { s.station n with profile := p } := by
  unfold State.setup
  rcases h with ⟨he, hl⟩ | ⟨he, hl⟩
  · rw [he]
    cases hlink : (s.station n).link with
    | disabled => exact absurd hlink hl
    | detached => rfl
    | attached => rfl
  · rw [he, hl]
    rfl

theorem State.setup_disable {s : State} {n : StationIx} {p : Profile} (he : p.enable = false)
    (hl : (s.station n).link ≠ .disabled) : s.setup n p = s.disable n p := by
  unfold State.setup
  rw [he]
  cases hlink : (s.station n).link with
  | disabled => exact absurd hlink hl
  | detached => rfl
  | attached => rfl

/-- Settles O26: the checks, enabling, and the profile alone. -/
theorem stationSetupWritesProfile : Obligations.StationSetupWritesProfile := by
  intro s n enable keyMap delay period chatter suffix gap advance code hs hdelay hperiod
  dsimp only
  have hlen (k : Byte) := length_setupPayload k enable keyMap delay period chatter suffix gap advance code
  have hhandle := s.byteSeen.hunt.handle_setup enable keyMap chatter suffix gap advance code n hdelay hperiod
  refine ⟨fun k hk => ?_, fun hmap => ?_, fun m hm => ⟨fun hcode => ?_, fun hcode => ⟨fun he hl => ?_, fun hkeep => ?_⟩⟩⟩
  · exact exec_refuses hs .stationSetup (hlen k)
      (State.handle_setup_outside _ enable keyMap chatter suffix gap advance code hk)
  · rw [dif_neg (by omega)] at hhandle
    exact exec_refuses hs .stationSetup (hlen _) hhandle
  · rw [dif_pos (by omega), if_pos hcode] at hhandle
    exact exec_refuses hs .stationSetup (hlen _) hhandle
  · have hkm : (⟨keyMap.toNat, by omega⟩ : Fin 4) = m := Fin.ext hm.symm
    rw [dif_pos (by omega), if_neg (by omega), hkm, State.setup_enable (decide_eq_true he) (by exact hl)] at hhandle
    rw [decide_eq_true he] at hhandle
    exact exec_accepts (t := s.setStation n _) hs .stationSetup (hlen _) hhandle
  · have hkm : (⟨keyMap.toNat, by omega⟩ : Fin 4) = m := Fin.ext hm.symm
    have hcases : decide (enable ≠ 0x00#8) = true ∧ (s.station n).link ≠ .disabled ∨
        decide (enable ≠ 0x00#8) = false ∧ (s.station n).link = .disabled :=
      hkeep.imp (And.imp_left decide_eq_true) (And.imp_left fun h => decide_eq_false (not_not_intro h))
    rw [dif_pos (by omega), if_neg (by omega), hkm, State.setup_profile (by exact hcases)] at hhandle
    exact exec_accepts (t := s.setStation n _) hs .stationSetup (hlen _) hhandle

end Sys2Proof.Machine
end

section
/-! SUPPORT. Releases taken off the queue, and the fields a READ FORM carries (O15, O17, O27). -/

namespace Sys2Proof.Machine

/-! ### A release removed and the room-wait list served (R135, R138, R140) -/

/-- Releases with no answer in flight rest on the stations and the release queue alone. -/
theorem State.ReleasesSound.idle {s t : State} (h : s.ReleasesSound) (hst : t.stations = s.stations) (hrq : t.rq = s.rq)
    (ha : t.answer = none) : t.ReleasesSound := by
  have hstation (n : StationIx) : t.station n = s.station n := congrArg (fun v => v[n]) hst
  obtain ⟨hstage, ⟨hq, hr, hown⟩, ⟨hsize, hhead⟩, -⟩ := h
  refine ⟨hrq ▸ hstage, ⟨hrq ▸ hq, hrq ▸ hr, fun n => ?_⟩, ⟨fun e he => ?_, hrq ▸ hhead⟩, fun a hx => ?_⟩
  · rw [hstation n, hrq]
    exact hown n
  · rw [hstation e.station]
    exact hsize e (hrq ▸ he)
  · rw [ha] at hx
    cases hx

/-- R140: what is left when a station's release is discarded, the list served and the station replaced. -/
theorem State.ReleasesSound.served {s : State} (h : s.ReleasesSound) (n : StationIx) (st : Station) :
    ∃ moved, s.Served ((s.discardRelease n).setStation n st) (s.rq.queue.filter fun r => r.station != n)
        ((s.rq.queue.filter fun r => r.station != n).map Record.size).sum
        (s.rq.rooms.filter fun e => e.station != n) moved ∧
      ((s.discardRelease n).setStation n st).station n = st ∧
      (∀ k, k ≠ n → (∀ e ∈ moved, e.station ≠ k) → ((s.discardRelease n).setStation n st).station k = s.station k) ∧
      (s.discardRelease n).setStation n st =
        { s with
          stations := ((s.discardRelease n).setStation n st).stations, rq := ((s.discardRelease n).setStation n st).rq } ∧
      ∀ e ∈ moved, e.station ≠ n := by
  obtain ⟨hstage, ⟨-, hdistinct, -⟩, ⟨hsizes, -⟩, -⟩ := h
  have hstaging := ReleaseQueue.remove_spec n hstage
  have hother : ∀ e ∈ s.rq.rooms.filter (fun e => e.station != n), e.station ≠ n := by simp
  rw [State.discardRelease_setStation]
  generalize hs1 : ({ s.setStation n st with
    rq := { s.rq.remove n with rooms := s.rq.rooms.filter fun e => e.station != n } } : State) = s1
  have hstation (k : StationIx) : s1.station k = if k = n then st else s.station k := by
    rw [← hs1]
    exact s.station_setStation n k st
  have hsame {k : StationIx} (hk : k ≠ n) : s1.station k = s.station k := by rw [hstation, if_neg hk]
  obtain ⟨moved, hrooms, hqueue, hcount, hhead, hmoved, hrest, hframe⟩ :=
    State.serveList_spec (s.rq.rooms.filter fun e => e.station != n) s1 (hdistinct.filter _) fun e he => by
      rw [hsame (hother e he)]
      obtain ⟨hsize, -⟩ := hsizes e (List.mem_of_mem_filter he)
      exact hsize
  have hin (e : RoomEntry) (he : e ∈ moved) : e.station ≠ n :=
    hother e (by rw [hrooms]; exact List.mem_append_left _ he)
  refine ⟨moved, ⟨hrooms, ?_, ?_, hhead, fun e he => ?_⟩, ?_, fun k hk hno => ?_, ?_, hin⟩
  · rw [hqueue, ← hs1]
    refine congrArg _ (List.map_congr_left fun e he => ?_)
    exact congrArg (fun x : Station => x.sheet.compose e) (by rw [hs1]; exact hsame (hin e he))
  · rw [hcount, ← hstaging, ← hs1]
  · rw [hmoved e he, hsame (hin e he)]
  · rw [hrest n fun e he => hin e he, hstation, if_pos rfl]
  · rw [hrest k hno, hsame hk]
  · rw [hframe, ← hs1]
    rfl

/-- A station with no release: discarding one changes nothing that is queued or waits. -/
theorem State.OwnersSound.filters_free {s : State} (h : s.OwnersSound) {n : StationIx} (hf : (s.station n).input.Free) :
    (s.rq.queue.filter fun r => r.station != n) = s.rq.queue ∧
      (s.rq.rooms.filter fun e => e.station != n) = s.rq.rooms := by
  obtain ⟨hq, hr⟩ := h.free hf
  exact ⟨List.filter_eq_self.mpr (by simpa using hq), List.filter_eq_self.mpr (by simpa using hr)⟩

theorem Station.releasePending_iff {st : Station} : st.releasePending = false ↔ st.input.Free := by
  simp [Station.releasePending, InputState.Free]

/-- R29: disabling a station, whether or not it has a release. -/
theorem State.ReleasesSound.disabled {s : State} (h : s.ReleasesSound) (n : StationIx) (p : Profile) :
    ∃ moved, s.Served (s.disable n p) (s.rq.queue.filter fun r => r.station != n)
        ((s.rq.queue.filter fun r => r.station != n).map Record.size).sum
        (s.rq.rooms.filter fun e => e.station != n) moved ∧
      (s.disable n p).station n = (s.station n).disable p ∧
      (∀ k, k ≠ n → (∀ e ∈ moved, e.station ≠ k) → (s.disable n p).station k = s.station k) ∧
      s.disable n p = { s with stations := (s.disable n p).stations, rq := (s.disable n p).rq } := by
  unfold State.disable
  cases hpending : (s.station n).releasePending with
  | true =>
    have hset : ((if true = true then s.discardRelease n else s).onStation n fun st => st.disable p) =
        (s.discardRelease n).setStation n ((s.station n).disable p) := by
      rw [if_pos rfl, State.onStation_eq, State.station_discardRelease]
    rw [hset]
    obtain ⟨moved, hserved, hself, hrest, hframe, -⟩ := h.served n ((s.station n).disable p)
    exact ⟨moved, hserved, hself, hrest, hframe⟩
  | false =>
    have hset : ((if false = true then s.discardRelease n else s).onStation n fun st => st.disable p) =
        s.setStation n ((s.station n).disable p) := rfl
    obtain ⟨⟨hsum, -⟩, howners, ⟨-, hhead⟩, -⟩ := h
    obtain ⟨hq, hr⟩ := howners.filters_free (Station.releasePending_iff.mp hpending)
    rw [hset, hq, hr]
    refine ⟨[], ⟨rfl, (List.append_nil _).symm, hsum, hhead, by simp⟩, State.station_setStation_same _ _ _,
      fun k hk _ => State.station_setStation_ne _ _ hk, rfl⟩

/-- Settles O27: the profile carried, the release discarded, the list served. -/
theorem stationSetupDisables : Obligations.StationSetupDisables := by
  intro s n m delay period chatter suffix gap advance code hs hrel hdelay hperiod hcode hl
  have hm := m.2
  have hmap : (byte1 m.1).toNat = m.1 := byte1_toNat_of_lt (by omega)
  have hlen := length_setupPayload (stationByte n) 0x00#8 (byte1 m.1) delay period chatter suffix gap advance code
  have hhandle := s.byteSeen.hunt.handle_setup 0x00#8 (byte1 m.1) chatter suffix gap advance code n hdelay hperiod
  have hkm : (⟨(byte1 m.1).toNat, by omega⟩ : Fin 4) = m := Fin.ext hmap
  have henable : decide ((0x00#8 : Byte) ≠ 0x00#8) = false := by decide
  rw [dif_pos (by omega), if_neg (by omega), hkm, henable, State.setup_disable (by rfl) (by exact hl)] at hhandle
  generalize setupProfile false m delay period chatter suffix gap advance code = p at hhandle ⊢
  obtain ⟨moved, hserved, hself, hrest, hkept⟩ := State.ReleasesSound.disabled (s := s.byteSeen.hunt)
    (hrel.idle rfl rfl rfl) n p
  generalize s.byteSeen.hunt.disable n p = t at hhandle hserved hself hrest hkept
  refine ⟨{ s with stations := t.stations, rq := t.rq }, moved, ?_, hself, hserved, hrest,
    rfl, rfl, rfl, rfl, rfl, rfl, rfl, rfl, rfl, rfl, rfl, rfl, rfl⟩
  exact exec_accepts (t := { s with stations := t.stations, rq := t.rq }) hs .stationSetup hlen
    (by rw [hhandle, hkept]; rfl)

/-! ### A RELEASE answer complete (R135, R138) -/

/-- R133: the records of a station are its one record. -/
theorem sum_sizes_of_station {queue : List Record} (hd : queue.Pairwise fun r q => r.station ≠ q.station) {r : Record}
    (hr : r ∈ queue) : ((queue.filter fun q => q.station == r.station).map Record.size).sum = r.size := by
  have hone : (queue.filter fun q => q.station == r.station) = [r] := by
    induction queue with
    | nil => exact absurd hr List.not_mem_nil
    | cons q queue ih =>
      obtain ⟨hq, hd⟩ := List.pairwise_cons.mp hd
      rcases List.mem_cons.mp hr with rfl | hr
      · have hnone : (queue.filter fun q => q.station == r.station) = [] :=
          List.filter_eq_nil_iff.mpr fun q hm => by simpa using (hq q hm).symm
        rw [List.filter_cons_of_pos (by simp), hnone]
      · rw [List.filter_cons_of_neg (by simpa using hq r hr)]
        exact ih hd hr
  rw [hone]
  simp

theorem State.completeRelease_eq {s : State} {n : StationIx}
    (h : (s.rq.rooms.filter fun e => e.station != n) = s.rq.rooms) :
    s.completeRelease n = (s.discardRelease n).setStation n ((s.station n).setInput .waiting) := by
  rw [State.discardRelease_setStation, h]
  rfl

/-- Settles O15: the record removed, the station WAITING, the list served. -/
theorem releaseCompletionFreesStaging : Obligations.ReleaseCompletionFreesStaging := by
  intro s a r hrel ha hsend hk hr hstation
  obtain ⟨⟨hsum, hmax, hrecords⟩, ⟨hq, hrooms, hown⟩, -, -⟩ := id hrel
  have hinput : (s.station r.station).input = .released := (hown r.station).1.mpr ⟨r, hr, rfl⟩
  have hnor : ∀ e ∈ s.rq.rooms, e.station ≠ r.station := fun e he hen => by
    have := (hown r.station).2.mpr ⟨e, he, hen⟩
    rw [hinput] at this
    cases this
  have hroomsAll : (s.rq.rooms.filter fun e => e.station != r.station) = s.rq.rooms :=
    List.filter_eq_self.mpr (by simpa using hnor)
  have hstaging : ((s.rq.queue.filter fun q => q.station != r.station).map Record.size).sum = s.rq.staging - r.size := by
    rw [← ReleaseQueue.remove_spec r.station ⟨hsum, hmax, hrecords⟩, ← sum_sizes_of_station hq hr]
    rfl
  have hexec : exec .answerComplete s = .next (s.byteSeen.completeRelease r.station) := by
    change Host.Outcome.next s.completeAnswer = _
    unfold State.completeAnswer
    rw [ha]
    dsimp only
    rw [if_pos hsend]
    unfold State.handOn
    rw [if_pos hk, hstation, stationOf_stationByte]
  have hcomplete : s.byteSeen.completeRelease r.station =
      (s.byteSeen.discardRelease r.station).setStation r.station ((s.station r.station).setInput .waiting) :=
    State.completeRelease_eq (s := s.byteSeen) hroomsAll
  obtain ⟨moved, hserved, hself, hrest, hkept, hne⟩ := State.ReleasesSound.served (s := s.byteSeen)
    (hrel.idle rfl rfl rfl) r.station ((s.station r.station).setInput .waiting)
  rw [← hcomplete] at hserved hself hrest hkept
  generalize s.byteSeen.completeRelease r.station = t at hexec hserved hself hrest hkept
  obtain ⟨-, -, -, -, hmoved⟩ := id hserved
  change s.Served t (s.rq.queue.filter fun q => q.station != r.station)
    ((s.rq.queue.filter fun q => q.station != r.station).map Record.size).sum
    (s.rq.rooms.filter fun e => e.station != r.station) moved at hserved
  rw [hstaging, hroomsAll] at hserved
  refine ⟨t, moved, hexec, by rw [hkept]; rfl, by rw [hkept]; rfl, by rw [hkept]; rfl, hserved, hself, hrest,
    fun n => ?_, ?_⟩
  · by_cases hn : n = r.station
    · rw [hn, hself, Station.setInput_sheet]
    · by_cases hm : ∃ e ∈ moved, e.station = n
      · obtain ⟨e, he, rfl⟩ := hm
        rw [hmoved e he, Station.setInput_sheet]
        rfl
      · rw [hrest n hn fun e he hen => hm ⟨e, he, hen⟩]
        rfl
  · rw [hkept]
    exact ⟨rfl, rfl, rfl, rfl, rfl, rfl, rfl, rfl, rfl, rfl, rfl, rfl, rfl⟩

/-! ### READ FORM (R141, R142) -/

/-- R142: the entries carried from a running size on are those of a first part of the fields, as long as fits. -/
theorem Sheet.formEntries_spec (sh : Sheet) (fs : List Field) {size : Nat} (h : size ≤ 2048) :
    ∃ taken rest, fs = taken ++ rest ∧ size + (taken.map fun f => (sh.entryFor f).size).sum ≤ 2048 ∧
      (∀ f ∈ rest.head?, 2048 < size + (taken.map fun f => (sh.entryFor f).size).sum + (sh.entryFor f).size) ∧
      sh.formEntries size fs = (taken.map sh.entryFor, (rest.head?.map Field.start).getD 0xFFFF) := by
  induction fs generalizing size with
  | nil => exact ⟨[], [], rfl, h, by simp, rfl⟩
  | cons f fs ih =>
    by_cases hbig : 2048 < size + (sh.entryFor f).size
    · refine ⟨[], f :: fs, rfl, h, fun g hg => ?_, if_pos hbig⟩
      cases hg
      exact hbig
    · obtain ⟨taken, rest, hfs, hsum, hhead, heq⟩ := ih (Nat.not_lt.mp hbig)
      have hcons : ((f :: taken).map fun f => (sh.entryFor f).size).sum =
          (sh.entryFor f).size + (taken.map fun f => (sh.entryFor f).size).sum := by simp
      refine ⟨f :: taken, rest, by rw [hfs]; rfl, by rw [hcons]; omega, fun g hg => ?_, ?_⟩
      · have := hhead g hg
        rw [hcons]
        omega
      · unfold Sheet.formEntries
        rw [if_neg hbig, heq]
        rfl

/-- R141: the scope codes. -/
theorem scopeOf_some {scope : Byte} {sel : Field → Bool}
    (h : scope = 0x00#8 ∧ sel = Field.touched ∨ scope = 0x01#8 ∧ sel = Field.isInput ∨
      scope = 0x02#8 ∧ sel = fun _ => true) : scopeOf scope = some sel := by
  rcases h with ⟨rfl, rfl⟩ | ⟨rfl, rfl⟩ | ⟨rfl, rfl⟩
  · rfl
  · rfl
  · rfl

/-- Settles O17: the greedy selection of R142. -/
theorem readFormCarriesSelectedFields : Obligations.ReadFormCarriesSelectedFields := by
  intro s n start scope sel hs hstart hscope
  obtain ⟨taken, rest, hfields, hsum, hhead, hentries⟩ := (s.station n).sheet.formEntries_spec
    ((s.station n).sheet.fields.filter fun f => sel f && decide (start ≤ f.start)) (size := 7) (by decide)
  refine ⟨taken, rest, hfields, hsum, hhead, ?_⟩
  have hdata : (s.station n).formData start sel =
      bytes2 ((rest.head?.map Field.start).getD 0xFFFF) ++ bytes2 (s.station n).sheet.cursor ++
        [byte1 (s.station n).sheet.top, byte1 taken.length, (s.station n).input.code] ++
        taken.flatMap fun f => ((s.station n).sheet.entryFor f).bytes := by
    unfold Station.formData
    dsimp only
    rw [hentries, List.length_map, List.flatMap_map]
  have hhandle : s.byteSeen.hunt.handle .readForm (stationByte n) (bytes2 start ++ [scope]) =
      (reply .formData ((s.station n).formData start sel), s.byteSeen.hunt) := by
    have hnum := number_bytes2 hstart
    unfold bytes2 at hnum
    unfold State.handle bytes2
    dsimp only
    rw [toStation_stationByte]
    unfold handleReadForm
    dsimp only [List.cons_append, List.nil_append]
    rw [scopeOf_some hscope, hnum]
    rfl
  have hexec := exec_serving hs .readForm (stationByte n) (p := bytes2 start ++ [scope]) (by simp)
  rw [hhandle, respond_reply _ _ _ _ (by decide), hdata] at hexec
  exact hexec

end Sys2Proof.Machine
end

section
/-! SUPPORT. The store requests: their checks in order, and the work an accepted one begins (O28 to O30, O32, O35,
O37). -/

namespace Sys2Proof.Machine

/-! ### Requests to the store -/

section
variable {s : State} (hs : s.Serving) (k : DownKind) {payload : List Byte} (hlen : payload.length ≤ 2048)
include hs hlen

/-- R171, R177: a refusal composed in the state `t` that the handling leaves. -/
theorem exec_refuses_after {t : State} {reason : Reason} {subcode detail : Nat}
    (h : s.byteSeen.hunt.handle k 0x00#8 payload = (refuse reason subcode detail, t.byteSeen.hunt)) :
    exec (k.command 0x00#8 payload) s = .next (t.withRefusal 0x00#8 reason.code (byte1 subcode) detail) := by
  rw [exec_serving hs k _ hlen, h, respond_refuse]

end

theorem isSome_of_ne_none {α : Type} {o : Option α} (h : o ≠ none) : o.isSome = true := Option.isSome_iff_ne_none.mpr h

/-- The first slot of a range that a test names. -/
theorem slotRange_find {p : Nat → Bool} {first count k : Nat} (hk : first ≤ k ∧ k < first + count) (hp : p k = true)
    (hmin : ∀ j, first ≤ j ∧ j < first + count → j < k → p j = false) : (slotRange first count).find? p = some k := by
  rw [List.find?_eq_some_iff_getElem]
  refine ⟨hp, k - first, ?_, ?_, fun j hj => ?_⟩
  · simp [slotRange]
    omega
  · simp [slotRange]
    omega
  · have := hmin (first + j) ⟨by omega, by omega⟩ (by omega)
    simpa [slotRange] using this

theorem slotRange_find_none {p : Nat → Bool} {first count : Nat}
    (h : ∀ j, first ≤ j ∧ j < first + count → p j = false) : (slotRange first count).find? p = none := by
  rw [List.find?_eq_none]
  intro j hj
  rw [h j ((mem_slotRange _ _ _).mp hj)]
  exact nofun

/-! ### LOAD OPEN (R156) -/

theorem Store.lookup_none {st : Store} {form : Byte} (h : ∀ e ∈ st.directory, e.form ≠ form) : st.lookup form = none :=
  List.find?_eq_none.mpr (by simpa using h)

theorem Store.lookup_first {st : Store} {form : Byte} {before after : List DirEntry} {e : DirEntry}
    (hdir : st.directory = before ++ e :: after) (hb : ∀ d ∈ before, d.form ≠ form) (he : e.form = form) :
    st.lookup form = some e :=
  List.find?_eq_some_iff_append.mpr ⟨by simp [he], before, after, hdir, by simpa using hb⟩

section
variable {st : Store} {form : Byte} {first count : Nat}

theorem Store.openFault_listed {e : DirEntry} (h : st.lookup form = some e) :
    st.openFault form first count = some (refuse .formExists 0 e.first) := by
  unfold Store.openFault
  rw [h]

theorem Store.openFault_protected (h : st.lookup form = none) {k : Nat} (hk : first ≤ k ∧ k < first + count)
    (hp : st.slotProtected k = true)
    (hmin : ∀ j, first ≤ j ∧ j < first + count → j < k → st.slotProtected j = false) :
    st.openFault form first count = some (refuse .protectedGroup 0 (k / 4)) := by
  unfold Store.openFault
  rw [h]
  dsimp only
  rw [slotRange_find hk hp hmin]

theorem Store.openFault_notErased (h : st.lookup form = none)
    (hfree : ∀ k, first ≤ k ∧ k < first + count → st.slotProtected k = false) {k : Nat}
    (hk : first ≤ k ∧ k < first + count) (hp : st.slot k ≠ .erased)
    (hmin : ∀ j, first ≤ j ∧ j < first + count → j < k → st.slot j = .erased) :
    st.openFault form first count = some (refuse .notErased 0 k) := by
  have hfind := slotRange_find (p := fun k => st.slot k != .erased) hk (by simpa using hp)
    fun j hj hlt => by simp [hmin j hj hlt]
  unfold Store.openFault
  rw [h]
  dsimp only
  rw [slotRange_find_none hfree]
  dsimp only
  rw [hfind]

theorem Store.openFault_free (h : st.lookup form = none)
    (hfree : ∀ k, first ≤ k ∧ k < first + count → st.slotProtected k = false)
    (herased : ∀ k, first ≤ k ∧ k < first + count → st.slot k = .erased) : st.openFault form first count = none := by
  have hfind := slotRange_find_none (p := fun k => st.slot k != .erased) (first := first) (count := count)
    fun j hj => by simp [herased j hj]
  unfold Store.openFault
  rw [h]
  dsimp only
  rw [slotRange_find_none hfree]
  dsimp only
  rw [hfind]

end

theorem handleLoadOpen_busy {s : State} {payload : List Byte} (hno : s.store.session = none) (hop : s.store.op ≠ none) :
    handleLoadOpen payload s = (refuse .storeBusy 0 0, s) := by
  unfold handleLoadOpen
  rw [hno]
  exact if_pos (isSome_of_ne_none hop)

/-- R156: the checks of a LOAD OPEN on an idle store. -/
theorem handleLoadOpen_idle {s : State} (hno : s.store.session = none) (hop : s.store.op = none)
    (form first count : Byte) :
    handleLoadOpen [form, first, count] s =
      if form.toNat < 1 ∨ 250 < form.toNat ∨ count.toNat < 1 ∨ 8 < count.toNat ∨ 64 < first.toNat + count.toNat then
        (refuse .badParameter 0 0, s)
      else (s.store.openFault form first.toNat count.toNat).elim
        (accept [byte1 (31 * count.toNat)], s.setStore (s.store.openSession form first.toNat count.toNat))
        fun r => (r, s) := by
  unfold handleLoadOpen
  rw [hno, hop]
  dsimp only
  cases s.store.openFault form first.toNat count.toNat <;> rfl

/-- Settles O28: the checks in order, and the session opened. -/
theorem loadOpenReservesErasedSlots : Obligations.LoadOpenReservesErasedSlots := by
  intro s form first count hs
  dsimp only
  have hlen : [form, first, count].length ≤ 2048 := by simp
  have hrefuses {reason : Reason} {detail : Nat}
      (h : handleLoadOpen [form, first, count] s.byteSeen.hunt = (refuse reason 0 detail, s.byteSeen.hunt)) :
      exec (.loadOpen 0x00#8 [form, first, count]) s = .next (s.withRefusal 0x00#8 reason.code 0x00#8 detail) :=
    exec_refuses hs .loadOpen hlen h
  refine ⟨fun hno => ?_, fun hno => ⟨fun hop => ?_, fun hop => ?_⟩⟩
  · exact hrefuses (if_pos (isSome_of_ne_none hno))
  · exact hrefuses (handleLoadOpen_busy (s := s.byteSeen.hunt) hno hop)
  · have hidle := handleLoadOpen_idle (s := s.byteSeen.hunt) hno hop form first count
    refine ⟨fun hbad => ?_, fun hform hcount hfit => ?_⟩
    · rw [if_pos hbad] at hidle
      exact hrefuses hidle
    · rw [if_neg (by omega)] at hidle
      have hfault {reason : Reason} {detail : Nat}
          (h : s.store.openFault form first.toNat count.toNat = some (refuse reason 0 detail)) :
          exec (.loadOpen 0x00#8 [form, first, count]) s = .next (s.withRefusal 0x00#8 reason.code 0x00#8 detail) :=
        hrefuses (hidle.trans (congrArg (fun o => Option.elim o _ _) h))
      refine ⟨fun before e after hdir hb he => ?_, fun hnew => ⟨fun k hk hp hmin => ?_, fun hfree =>
        ⟨fun k hk hp hmin => ?_, fun herased => ?_⟩⟩⟩
      · exact hfault (Store.openFault_listed (Store.lookup_first hdir hb he))
      · exact hfault (Store.openFault_protected (Store.lookup_none hnew) hk hp hmin)
      · exact ⟨_, hfault (Store.openFault_notErased (Store.lookup_none hnew) hfree hk hp hmin)⟩
      · have hnone := Store.openFault_free (Store.lookup_none hnew) hfree herased
        have haccept : handleLoadOpen [form, first, count] s.byteSeen.hunt =
            (accept [byte1 (31 * count.toNat)],
              (s.setStore (s.store.openSession form first.toNat count.toNat)).byteSeen.hunt) :=
          hidle.trans (congrArg (fun o => Option.elim o _ _) hnone)
        refine ⟨(s.store.setSlots (fun k => decide (first.toNat ≤ k ∧ k < first.toNat + count.toNat)) .loading).slots,
          fun k => ?_, ?_⟩
        · rw [Store.setSlots_get]
          simp only [decide_eq_true_eq]
        · rw [← Store.openSession_frame]
          exact exec_accepts (t := s.setStore (s.store.openSession form first.toNat count.toNat)) hs .loadOpen hlen haccept

/-! ### Row programs begun (R157, R158) -/

/-- R158: the row programs of a frame, image row by image row. -/
theorem dataJobs_rowsOf (first : Nat) (k j : Nat) (data : List Byte) :
    dataJobs first j (rowsOf k data) = (List.range k).map fun i =>
      { slot := first + (j + i) / 31, row := 1 + (j + i) % 31, bytes := (data.drop (64 * i)).take 64 } := by
  induction k generalizing j data with
  | zero => rfl
  | succ k ih =>
    rw [List.range_succ_eq_map, List.map_cons, List.map_map]
    unfold rowsOf dataJobs
    rw [ih]
    refine congrArg (List.cons _) (List.map_congr_left fun i _ => ?_)
    have hrow : j + 1 + i = j + (i + 1) := by omega
    have hdrop : (data.drop 64).drop (64 * i) = data.drop (64 * (i + 1)) := by
      rw [List.drop_drop]
      congr 1
      omega
    simp only [Function.comp_apply, hrow, hdrop]

/-- The begun slots after a row program begins. -/
def joinSlot (k : Nat) (begun : List Nat) : List Nat := if k ∈ begun then begun else begun ++ [k]

theorem mem_joinSlot {j k : Nat} {begun : List Nat} : j ∈ joinSlot k begun ↔ j ∈ begun ∨ j = k := by
  unfold joinSlot
  split
  · rename_i hk
    exact ⟨.inl, fun h => h.elim id fun h => h ▸ hk⟩
  · simp

theorem Store.beginRow_session {st : Store} {ss : Session} (h : st.session = some ss) (job : RowJob)
    (rest : List RowJob) :
    st.beginRow job rest =
      { st with
        op := some (.rowProgram job), rowsWaiting := rest
        session := some { ss with begun := joinSlot job.slot ss.begun } } := by
  unfold Store.beginRow
  rw [h]
  rfl

/-- R157: an accepted LOAD DATA. -/
theorem Store.beginData_eq (st : Store) (ss : Session) {k : Nat} (hk : 1 ≤ k) {data : List Byte}
    (hlen : data.length = 64 * k) :
    ∃ job rest, st.beginData ss data =
        { st with
          op := some (.rowProgram job), rowsWaiting := rest
          session := some { ss with frameRows := k, begun := joinSlot job.slot ss.begun } } ∧
      job :: rest = (List.range k).map fun i =>
        { slot := ss.first + (ss.expected + i) / 31, row := 1 + (ss.expected + i) % 31
          bytes := (data.drop (64 * i)).take 64 } := by
  have hdiv : data.length / 64 = k := by omega
  have hjobs := dataJobs_rowsOf ss.first k ss.expected data
  unfold Store.beginData
  rw [hdiv]
  cases hd : dataJobs ss.first ss.expected (rowsOf k data) with
  | nil =>
    rw [hd] at hjobs
    have := congrArg List.length hjobs
    simp at this
    omega
  | cons job rest =>
    exact ⟨job, rest, rfl, hd.symm.trans hjobs⟩

/-- R155: with no session, or an abandoning one, there is none for the load requests. -/
theorem Store.activeSession_none {st : Store} (h : ∀ ss ∈ st.session, ss.abandoning = true) :
    st.activeSession = none := by
  unfold Store.activeSession
  cases hs : st.session with
  | none => rfl
  | some ss => simp [Option.filter, h ss hs]

theorem Store.activeSession_some {st : Store} {ss : Session} (h : st.session = some ss) (ha : ss.abandoning = false) :
    st.activeSession = some ss := by
  simp [Store.activeSession, h, Option.filter, ha]

section
variable {s : State} {payload : List Byte}

theorem handleLoadData_inactive (h : s.store.activeSession = none) :
    handleLoadData payload s = (refuse .sequence 0 0, s) := by
  unfold handleLoadData
  rw [h]

theorem handleLoadData_failed {ss : Session} (h : s.store.activeSession = some ss) (hf : ss.failed = true) :
    handleLoadData payload s = (refuse .programFault 0 0, s) := by
  unfold handleLoadData
  rw [h]
  exact if_pos hf

theorem handleLoadData_busy {ss : Session} (h : s.store.activeSession = some ss) (hf : ss.failed = false)
    (hop : s.store.op ≠ none) : handleLoadData payload s = (refuse .storeBusy 0 0, s) := by
  unfold handleLoadData
  rw [h]
  dsimp only
  rw [hf]
  exact if_pos (isSome_of_ne_none hop)

/-- R157: the checks of a LOAD DATA on an idle store. -/
theorem handleLoadData_idle {ss : Session} (h : s.store.activeSession = some ss) (hf : ss.failed = false)
    (hop : s.store.op = none) (row : Byte) (data : List Byte) :
    handleLoadData (row :: data) s =
      if data.length < 64 ∨ 1024 < data.length ∨ data.length % 64 ≠ 0 then (refuse .badLength 0 0, s)
      else if row.toNat ≠ ss.expected then (refuse .sequence 0 ss.expected, s)
      else if ss.capacity < row.toNat + data.length / 64 then (refuse .badParameter 0 0, s)
      else (accept [], s.setStore (s.store.beginData ss data)) := by
  unfold handleLoadData
  rw [h]
  dsimp only
  rw [hf, hop]
  rfl

end

/-- Settles O29: the checks in order, and the first row program. -/
theorem loadDataBeginsRowPrograms : Obligations.LoadDataBeginsRowPrograms := by
  intro s row data hs hlen
  dsimp only
  have hpayload : (row :: data).length ≤ 2048 := by simp; omega
  have hrefuses {reason : Reason} {detail : Nat}
      (h : handleLoadData (row :: data) s.byteSeen.hunt = (refuse reason 0 detail, s.byteSeen.hunt)) :
      exec (.loadData 0x00#8 (row :: data)) s = .next (s.withRefusal 0x00#8 reason.code 0x00#8 detail) :=
    exec_refuses hs .loadData hpayload h
  refine ⟨fun hno => hrefuses (handleLoadData_inactive (Store.activeSession_none hno)), fun ss hss ha => ?_⟩
  have hactive : s.byteSeen.hunt.store.activeSession = some ss := Store.activeSession_some hss ha
  refine ⟨fun hf => hrefuses (handleLoadData_failed hactive hf), fun hf =>
    ⟨fun hop => hrefuses (handleLoadData_busy hactive hf hop), fun hop => ?_⟩⟩
  have hidle := handleLoadData_idle hactive hf hop row data
  refine ⟨fun hbad => ?_, fun k hk hk16 hdata => ?_⟩
  · rw [if_pos hbad] at hidle
    exact hrefuses hidle
  · have hdiv : data.length / 64 = k := by omega
    rw [if_neg (by omega), hdiv] at hidle
    refine ⟨fun hne => ?_, fun heq => ⟨fun hbig => ?_, fun hroom => ?_⟩⟩
    · rw [if_pos hne] at hidle
      exact hrefuses hidle
    · rw [if_neg (not_not_intro heq), if_pos (by exact hbig)] at hidle
      exact hrefuses hidle
    · rw [if_neg (not_not_intro heq), if_neg (by exact Nat.not_lt.mpr hroom)] at hidle
      obtain ⟨job, rest, hbegin, hjobs⟩ := s.store.beginData_eq ss hk hdata
      refine ⟨job, rest, joinSlot job.slot ss.begun, ?_, by rw [heq]; exact hjobs, fun j => mem_joinSlot⟩
      rw [← hbegin]
      exact exec_accepts (t := s.setStore (s.store.beginData ss data)) hs .loadData hpayload hidle

/-! ### LOAD CLOSE (R159, R160) -/

/-- R160: the header rows in the order of their programs. -/
theorem Session.headerJobs_eq (ss : Session) (length : Nat) :
    ss.headerJobs length = ((List.range (ss.count - 1)).map (· + 1) ++ [0]).map (ss.headerJob length) := by
  unfold Session.headerJobs
  rw [List.map_append, List.map_map]
  rfl

/-- R160: a valid LOAD CLOSE begins the first header row program. -/
theorem Store.beginClose_eq (st : Store) (ss : Session) (length : Nat) :
    ∃ job rest, st.beginClose ss length =
        { st with
          op := some (.rowProgram job), rowsWaiting := rest
          session := some { ss with closing := some length, begun := joinSlot job.slot ss.begun } } ∧
      job :: rest = ((List.range (ss.count - 1)).map (· + 1) ++ [0]).map (ss.headerJob length) := by
  have hjobs := ss.headerJobs_eq length
  unfold Store.beginClose
  cases hd : ss.headerJobs length with
  | nil =>
    rw [hd] at hjobs
    have := congrArg List.length hjobs
    simp at this
  | cons job rest => exact ⟨job, rest, rfl, hd.symm.trans hjobs⟩

section
variable {s : State} {payload : List Byte}

theorem handleLoadClose_inactive (h : s.store.activeSession = none) :
    handleLoadClose payload s = (refuse .sequence 0 0, s) := by
  unfold handleLoadClose
  rw [h]

theorem handleLoadClose_failed {ss : Session} (h : s.store.activeSession = some ss) (hf : ss.failed = true) :
    handleLoadClose payload s = (refuse .programFault 0 0, s) := by
  unfold handleLoadClose
  rw [h]
  exact if_pos hf

theorem handleLoadClose_busy {ss : Session} (h : s.store.activeSession = some ss) (hf : ss.failed = false)
    (hop : s.store.op ≠ none) : handleLoadClose payload s = (refuse .storeBusy 0 0, s) := by
  unfold handleLoadClose
  rw [h]
  dsimp only
  rw [hf]
  exact if_pos (isSome_of_ne_none hop)

/-- R159, R160: a LOAD CLOSE on an idle store, by the checks of its image. -/
theorem handleLoadClose_idle {ss : Session} (h : s.store.activeSession = some ss) (hf : ss.failed = false)
    (hop : s.store.op = none) {length : Nat} (hlen : length < 65536) :
    handleLoadClose (bytes2 length) s =
      (imageFault (readImage s.store.mem ss.first length) ss.form length ss.expected).elim
        (accept [], s.setStore (s.store.beginClose ss length))
        fun f => (refuse .imageInvalid f.1.code f.2, s.setStore (s.store.endSession ss)) := by
  have hnum := number_bytes2 hlen
  unfold bytes2 at hnum ⊢
  unfold handleLoadClose Store.loadedImage
  rw [h]
  dsimp only
  rw [hf, hop, hnum]
  cases imageFault (readImage s.store.mem ss.first length) ss.form length ss.expected <;> rfl

end

/-- Settles O30: the checks in order, the image, and the header row programs. -/
theorem loadCloseValidatesThenProgramsHeaders : Obligations.LoadCloseValidatesThenProgramsHeaders := by
  intro s length hs hlength
  dsimp only
  have hpayload : (bytes2 length).length ≤ 2048 := by simp
  have hrefuses {reason : Reason} {detail : Nat}
      (h : handleLoadClose (bytes2 length) s.byteSeen.hunt = (refuse reason 0 detail, s.byteSeen.hunt)) :
      exec (.loadClose 0x00#8 (bytes2 length)) s = .next (s.withRefusal 0x00#8 reason.code 0x00#8 detail) :=
    exec_refuses hs .loadClose hpayload h
  refine ⟨fun hno => hrefuses (handleLoadClose_inactive (Store.activeSession_none hno)), fun ss hss ha hcount => ?_⟩
  have hactive : s.byteSeen.hunt.store.activeSession = some ss := Store.activeSession_some hss ha
  refine ⟨fun hf => hrefuses (handleLoadClose_failed hactive hf), fun hf =>
    ⟨fun hop => hrefuses (handleLoadClose_busy hactive hf hop), fun hop => ?_⟩⟩
  have hidle := handleLoadClose_idle hactive hf hop hlength
  refine ⟨fun e detail hfault => ?_, fun hvalid => ?_⟩
  · have hended : handleLoadClose (bytes2 length) s.byteSeen.hunt =
        (refuse .imageInvalid e.code detail, (s.setStore (s.store.endSession ss)).byteSeen.hunt) :=
      hidle.trans (congrArg (fun o => Option.elim o _ _) hfault)
    refine ⟨(s.store.endSession ss).slots, Store.endSession_slots s.store ss, ?_⟩
    rw [← Store.endSession_frame]
    exact exec_refuses_after (t := s.setStore (s.store.endSession ss)) hs .loadClose hpayload hended
  · have hclosed : handleLoadClose (bytes2 length) s.byteSeen.hunt =
        (accept [], (s.setStore (s.store.beginClose ss length)).byteSeen.hunt) :=
      hidle.trans (congrArg (fun o => Option.elim o _ _) hvalid)
    obtain ⟨job, rest, hbegin, hjobs⟩ := s.store.beginClose_eq ss length
    refine ⟨job, rest, joinSlot job.slot ss.begun, ?_, hjobs, fun j => mem_joinSlot⟩
    rw [← hbegin]
    exact exec_accepts (t := s.setStore (s.store.beginClose ss length)) hs .loadClose hpayload hclosed

/-! ### LOAD ABANDON (R161) -/

theorem handleLoadAbandon_inactive {s : State} (h : s.store.activeSession = none) :
    handleLoadAbandon [] s = (refuse .sequence 0 0, s) := by
  unfold handleLoadAbandon
  rw [h]

theorem handleLoadAbandon_active {s : State} {ss : Session} (h : s.store.activeSession = some ss) :
    handleLoadAbandon [] s = (accept [], s.setStore (s.store.abandon ss)) := by
  unfold handleLoadAbandon
  rw [h]
  rfl

/-- Settles O32: with a row program in flight, and without. -/
theorem loadAbandonEndsSession : Obligations.LoadAbandonEndsSession := by
  intro s hs
  have hpayload : ([] : List Byte).length ≤ 2048 := Nat.zero_le _
  refine ⟨fun hno => exec_refuses hs .loadAbandon hpayload (handleLoadAbandon_inactive (Store.activeSession_none hno)),
    fun ss hss ha => ?_⟩
  have habandon := exec_accepts (t := s.setStore (s.store.abandon ss)) hs .loadAbandon hpayload
    (handleLoadAbandon_active (s := s.byteSeen.hunt) (Store.activeSession_some hss ha))
  refine ⟨fun job hop => ?_, fun hno => ?_⟩
  · have hrow : s.store.rowInFlight = true := by rw [Store.rowInFlight_eq, Store.rowNow_eq_some.mpr hop]; rfl
    have hmarked : s.store.abandon ss = { s.store with session := some { ss with abandoning := true } } := if_pos hrow
    rw [hmarked] at habandon
    exact habandon
  · have hrow : ¬ s.store.rowInFlight = true := by
      rw [Store.rowInFlight_eq, Option.isSome_iff_exists]
      rintro ⟨job, hjob⟩
      exact hno job (Store.rowNow_eq_some.mp hjob)
    have hended : s.store.abandon ss = s.store.endSession ss := if_neg hrow
    refine ⟨(s.store.endSession ss).slots, Store.endSession_slots s.store ss, ?_⟩
    rw [← Store.endSession_frame, ← hended]
    exact habandon

/-! ### ERASE SLOTS (R162) -/

theorem Store.templateProtected_iff {st : Store} {e : DirEntry} :
    st.templateProtected e = true ↔ ∃ j, e.covers j = true ∧ st.slotProtected j = true := by
  unfold Store.templateProtected
  rw [List.any_eq_true]
  exact exists_congr fun j => and_congr_left' ((mem_slotRange _ _ _).trans (e.covers_iff j).symm)

/-- R162: which slots are skipped. -/
theorem Store.skips_iff {st : Store} {k : Nat} : st.skips k = true ↔ st.slotProtected k = true ∨
    ∃ e ∈ st.directory, e.covers k = true ∧ ∃ j, e.covers j = true ∧ st.slotProtected j = true := by
  unfold Store.skips
  rw [Bool.or_eq_true, List.any_eq_true]
  simp only [Bool.and_eq_true, Store.templateProtected_iff]

/-- R162: the slots of the range that are skipped. -/
def Store.skipList (st : Store) (first last : Nat) : List Nat := (slotRange first (last + 1 - first)).filter st.skips

theorem Store.mem_skipList {st : Store} {first last k : Nat} :
    k ∈ st.skipList first last ↔ (first ≤ k ∧ k ≤ last) ∧ st.skips k = true := by
  unfold Store.skipList
  rw [List.mem_filter, mem_slotRange]
  exact and_congr_left' (by omega)

section
variable {s : State} {payload : List Byte}

theorem handleEraseSlots_busy (h : s.store.op ≠ none) : handleEraseSlots payload s = (refuse .storeBusy 0 0, s) :=
  if_pos (isSome_of_ne_none h)

theorem handleEraseSlots_loading (hop : s.store.op = none) (h : s.store.session ≠ none) :
    handleEraseSlots payload s = (refuse .sequence 0 0, s) := by
  unfold handleEraseSlots
  rw [hop]
  exact if_pos (isSome_of_ne_none h)

section
variable (hop : s.store.op = none) (hno : s.store.session = none) {first last : Byte}
include hop hno

theorem handleEraseSlots_range (h : 63 < first.toNat ∨ 63 < last.toNat ∨ last.toNat < first.toNat) :
    handleEraseSlots [first, last] s = (refuse .badParameter 0 0, s) := by
  unfold handleEraseSlots
  rw [hop, hno]
  exact if_pos h

variable (hle : first.toNat ≤ last.toNat) (hlast : last.toNat ≤ 63)
include hle hlast

theorem handleEraseSlots_cut {e : DirEntry}
    (h : (s.store.directory.find? fun e => e.straddles first.toNat last.toNat) = some e) :
    handleEraseSlots [first, last] s = (refuse .badParameter 1 e.first, s) := by
  unfold handleEraseSlots
  rw [hop, hno]
  dsimp only
  rw [if_neg nofun, if_neg nofun, if_neg (by omega), h]

variable (hcut : (s.store.directory.find? fun e => e.straddles first.toNat last.toNat) = none)
include hcut

theorem handleEraseSlots_nothing (h : s.store.eraseList first.toNat last.toNat = []) :
    handleEraseSlots [first, last] s =
      (accept [0x00#8, byte1 (s.store.skipList first.toNat last.toNat).length], s.raiseCtl causeStoreDone) := by
  unfold Store.eraseList at h
  unfold handleEraseSlots
  rw [hop, hno]
  dsimp only
  rw [if_neg nofun, if_neg nofun, if_neg (by omega), hcut, h]
  rfl

theorem handleEraseSlots_begins {slot : Nat} {rest : List Nat}
    (h : s.store.eraseList first.toNat last.toNat = slot :: rest) :
    handleEraseSlots [first, last] s =
      (accept [byte1 (slot :: rest).length, byte1 (s.store.skipList first.toNat last.toNat).length],
        s.setStore ((s.store.condemn (slot :: rest)).beginErase slot rest)) := by
  unfold Store.eraseList at h
  unfold handleEraseSlots
  rw [hop, hno]
  dsimp only
  rw [if_neg nofun, if_neg nofun, if_neg (by omega), hcut, h]
  rfl

end

end

/-- Settles O35: the checks, the sorting of the range, and the first erase. -/
theorem eraseSlotsSortsRange : Obligations.EraseSlotsSortsRange := by
  intro s first last hs
  dsimp only
  have hlen : [first, last].length ≤ 2048 := by simp
  refine ⟨fun hop => exec_refuses hs .eraseSlots hlen
      (handleEraseSlots_busy (s := s.byteSeen.hunt) (payload := [first, last]) hop),
    fun hop => ⟨fun hno => exec_refuses hs .eraseSlots hlen
      (handleEraseSlots_loading (s := s.byteSeen.hunt) (payload := [first, last]) hop hno), fun hno => ?_⟩⟩
  refine ⟨fun hbad => exec_refuses hs .eraseSlots hlen (handleEraseSlots_range (s := s.byteSeen.hunt) hop hno hbad),
    fun hle hlast => ⟨fun before e after hdir hb he => ?_, fun hcut => ?_⟩⟩
  · have hfind : (s.store.directory.find? fun e => e.straddles first.toNat last.toNat) = some e :=
      List.find?_eq_some_iff_append.mpr ⟨he, before, after, hdir, by simpa using hb⟩
    exact exec_refuses hs .eraseSlots hlen (handleEraseSlots_cut (s := s.byteSeen.hunt) hop hno hle hlast hfind)
  · have hfind : (s.store.directory.find? fun e => e.straddles first.toNat last.toNat) = none :=
      List.find?_eq_none.mpr (by simpa using hcut)
    refine ⟨s.store.eraseList first.toNat last.toNat, s.store.skipList first.toNat last.toNat,
      (slotRange_ascending _ _).filter _, (slotRange_ascending _ _).filter _, fun k => ?_, fun k => ?_, fun hnone => ?_,
      fun slot rest hlist => ?_⟩
    · rw [Store.mem_skipList, Store.skips_iff]
    · rw [Store.mem_skipList, Store.mem_eraseList]
      constructor
      · rintro ⟨hin, hskip, herased⟩
        exact ⟨hin, fun h => by rw [hskip] at h; exact absurd h.2 (by decide), herased⟩
      · rintro ⟨hin, hskip, herased⟩
        exact ⟨hin, Bool.eq_false_iff.mpr fun h => hskip ⟨hin, h⟩, herased⟩
    · exact exec_accepts (t := s.raiseCtl causeStoreDone) hs .eraseSlots hlen
        (handleEraseSlots_nothing (s := s.byteSeen.hunt) hop hno hle hlast hfind hnone)
    · have hexec := exec_accepts (t := s.setStore ((s.store.condemn (slot :: rest)).beginErase slot rest)) hs .eraseSlots
        hlen (handleEraseSlots_begins (s := s.byteSeen.hunt) hop hno hle hlast hfind hlist)
      rw [Store.condemn_frame] at hexec
      rw [hlist]
      refine ⟨(s.store.setSlots (fun k => (slot :: rest).contains k) .dirty).slots, fun k => ?_, hexec⟩
      rw [Store.setSlots_get]
      simp only [List.contains_iff_mem]

/-! ### PROTECT (R164) -/

theorem State.handle_protect (s : State) (p : List Byte) : s.handle .protect 0x00#8 p = handleProtect p s := rfl

theorem handleProtect_busy {s : State} {payload : List Byte} (h : s.store.op ≠ none) :
    handleProtect payload s = (refuse .storeBusy 0 0, s) := by
  unfold handleProtect
  exact if_pos (isSome_of_ne_none h)

/-- R164: the checks of a PROTECT on an idle store. -/
theorem handleProtect_idle {s : State} (hop : s.store.op = none) (group setting : Byte) :
    handleProtect [group, setting] s =
      if h : group.toNat < 16 then
        if 1 < setting.toNat then (refuse .badParameter 0 0, s)
        else if setting.toNat = 1 ∧ (slotRange (4 * group.toNat) 4).any (fun k => s.store.slot k == .loading) then
          (refuse .badParameter 2 group.toNat, s)
        else
          (accept [],
           s.setStore { s.store with op := some (.controlUpdate ⟨group.toNat, h⟩ (decide (setting.toNat = 1))) })
      else (refuse .badParameter 0 0, s) := by
  unfold handleProtect
  rw [hop]
  rfl

/-- R164: a slot of a group is LOADING. -/
theorem Store.group_loading_iff (st : Store) (g : Fin 16) :
    ((slotRange (4 * g.1) 4).any fun k => st.slot k == .loading) = true ↔
      ∃ k : Fin 64, k.1 / 4 = g.1 ∧ st.slots[k] = .loading := by
  rw [List.any_eq_true]
  constructor
  · rintro ⟨k, hk, hl⟩
    have hl' : st.slot k = .loading := by simpa using hl
    have hlt := Store.slot_lt hl' (by decide)
    have hin := (mem_slotRange _ _ _).mp hk
    exact ⟨⟨k, hlt⟩, by simp only; omega, by rw [← Store.slot_fin]; exact hl'⟩
  · rintro ⟨k, hk, hl⟩
    exact ⟨k.1, (mem_slotRange _ _ _).mpr (by omega), by rw [Store.slot_fin, hl]; rfl⟩

/-- Settles O37: the checks of the request, and the two completions of the update it begins. -/
theorem protectBeginsAndEndsControlUpdate : Obligations.ProtectBeginsAndEndsControlUpdate := by
  refine ⟨fun s group setting hs => ?_, fun s g setting hop => ?_⟩
  · have hlen : [group, setting].length ≤ 2048 := by simp
    refine ⟨fun hop => exec_refuses hs .protect hlen
      (handleProtect_busy (s := s.byteSeen.hunt) (payload := [group, setting]) hop), fun hop => ?_⟩
    have hidle := handleProtect_idle (s := s.byteSeen.hunt) hop group setting
    refine ⟨fun hbad => exec_refuses (reason := .badParameter) (subcode := 0) (detail := 0) hs .protect hlen ?_,
      fun g hg hset => ⟨fun hon hload => ?_, fun hfree => ?_⟩⟩
    · rw [State.handle_protect, hidle]
      split
      next hlt => exact if_pos (by omega)
      next => rfl
    · obtain ⟨_, hlt⟩ := g
      obtain rfl := hg
      refine exec_refuses (reason := .badParameter) (subcode := 2) (detail := group.toNat) hs .protect hlen ?_
      rw [State.handle_protect, hidle, dif_pos hlt, if_neg (by omega)]
      exact if_pos ⟨hon, (Store.group_loading_iff s.store ⟨group.toNat, hlt⟩).mpr hload⟩
    · obtain ⟨_, hlt⟩ := g
      obtain rfl := hg
      refine exec_accepts (t := s.setStore
        { s.store with op := some (.controlUpdate ⟨group.toNat, hlt⟩ (decide (setting.toNat = 1))) })
        hs .protect hlen ?_
      rw [State.handle_protect, hidle, dif_pos hlt, if_neg (by omega)]
      refine if_neg fun ⟨hon, hload⟩ => ?_
      obtain ⟨k, hk, hl⟩ := (Store.group_loading_iff s.store ⟨group.toNat, hlt⟩).mp hload
      rcases hfree with h | h
      · omega
      · exact h k hk hl
  · have hdone : ∀ b, exec (.controlUpdateComplete b) s = .next (s.controlComplete b) := fun b => rfl
    rw [hdone, hdone]
    unfold State.controlComplete
    rw [hop]
    exact ⟨rfl, rfl⟩

end Sys2Proof.Machine
end

section
/-! SUPPORT. The completions of the store's operations: what each leaves and what it begins next (O33, O34, O36). -/

namespace Sys2Proof.Machine

/-! ### Row programs (R144, R152, R158, R160, R161) -/

theorem State.programRow_success (s : State) (job : RowJob) :
    s.programRow job true = s.setStore { s.store with mem := putRow s.store.mem job job.bytes } := rfl

theorem State.programRow_failure (s : State) (job : RowJob) :
    s.programRow job false =
      (s.takeFree 64).2.setStore { s.store with mem := putRow s.store.mem job (failedRow job (s.takeFree 64).1) } := rfl

section
variable {s : State} {job : RowJob} {ss : Session} (hop : s.store.op = some (.rowProgram job))
  (hss : s.store.session = some ss)
include hop hss

theorem State.rowComplete_success : s.rowComplete true = (s.programRow job true).rowSuccess ss := by
  unfold State.rowComplete
  rw [hop, hss]
  rfl

theorem State.rowComplete_failure : s.rowComplete false = (s.programRow job false).rowFailure ss := by
  unfold State.rowComplete
  rw [hop, hss]
  rfl

end

/-- Of the store, only the slot table, the directory, the session and the rows to program can differ. -/
def Store.SameMemory (st u : Store) : Prop :=
  u.mem = st.mem ∧ u.protect = st.protect ∧ u.phase = st.phase ∧ u.erasesWaiting = st.erasesWaiting

theorem Store.endSession_sameMemory (st : Store) (ss : Session) : st.SameMemory (st.endSession ss) := by
  rw [Store.endSession_frame]
  exact ⟨rfl, rfl, rfl, rfl⟩

theorem State.rowSuccess_sameMemory (s : State) (ss : Session) : s.store.SameMemory (s.rowSuccess ss).store := by
  unfold State.rowSuccess
  split
  · exact s.store.idle.endSession_sameMemory ss
  · split
    · exact ⟨rfl, rfl, rfl, rfl⟩
    · change s.store.SameMemory (s.store.finishRows ss)
      unfold Store.finishRows
      split
      · rw [Store.listTemplate_frame]
        exact ⟨rfl, rfl, rfl, rfl⟩
      · exact ⟨rfl, rfl, rfl, rfl⟩

theorem State.setStore_frame (s : State) (st : Store) :
    s.setStore st = { s with store := (s.setStore st).store, causes := (s.setStore st).causes } := rfl

theorem State.raiseCtl_frame (s : State) (st : Store) (bits : Byte) :
    (s.setStore st).raiseCtl bits =
      { s with
        store := ((s.setStore st).raiseCtl bits).store
        causes := s.causes.set 0 (s.causes[0] ||| bits) } := rfl

theorem State.rowSuccess_frame (s : State) (ss : Session) :
    s.rowSuccess ss = { s with store := (s.rowSuccess ss).store, causes := (s.rowSuccess ss).causes } := by
  unfold State.rowSuccess
  split
  · exact s.setStore_frame _
  · split
    · exact s.setStore_frame _
    · exact State.raiseCtl_frame s _ _

/-- R161: an abandoning session ends with its row program. -/
theorem State.rowSuccess_abandoning (s : State) {ss : Session} (h : ss.abandoning = true) :
    s.rowSuccess ss = s.setStore (s.store.idle.endSession ss) := by
  unfold State.rowSuccess
  exact if_pos h

/-- R158, R160: the next row begins. -/
theorem State.rowSuccess_next {s : State} {ss : Session} (h : ss.abandoning = false) {next : RowJob}
    {rest : List RowJob} (hw : s.store.rowsWaiting = next :: rest) : s.rowSuccess ss = s.setStore (s.store.beginRow next rest) := by
  unfold State.rowSuccess
  rw [h, hw]
  rfl

/-- R158, R160: the last row has been programmed. -/
theorem State.rowSuccess_last {s : State} {ss : Session} (h : ss.abandoning = false) (hw : s.store.rowsWaiting = []) :
    s.rowSuccess ss = (s.setStore (s.store.finishRows ss)).raiseCtl causeStoreDone := by
  unfold State.rowSuccess
  rw [h, hw]
  rfl

theorem Store.finishRows_data (st : Store) {ss : Session} (h : ss.closing = none) :
    st.finishRows ss = { st.idle with session := some { ss with expected := ss.expected + ss.frameRows } } := by
  unfold Store.finishRows
  rw [h]

theorem Store.finishRows_header (st : Store) {ss : Session} {length : Nat} (h : ss.closing = some length) :
    st.finishRows ss = st.listTemplate ss length := by
  unfold Store.finishRows
  rw [h]

/-- Settles O33: the row is in place; then comes the next row, or the end of the frame, the close or the session. -/
theorem rowProgramSucceeds : Obligations.RowProgramSucceeds := by
  rintro s job ss ⟨hwf, -⟩ hop hss
  have hdone : exec (.rowProgramComplete true) s = .next (s.rowComplete true) := rfl
  rw [State.rowComplete_success hop hss, State.programRow_success] at hdone
  generalize hs1 : s.setStore { s.store with mem := putRow s.store.mem job job.bytes } = s1 at hdone
  obtain ⟨hmem, hprot, hphase, herase⟩ := s1.rowSuccess_sameMemory ss
  have hframe := s1.rowSuccess_frame ss
  have hw : s1.store.rowsWaiting = s.store.rowsWaiting := by rw [← hs1]; rfl
  refine ⟨s1.rowSuccess ss, hdone, by rw [hframe, ← hs1]; rfl, fun i hi => ?_, fun a ha => ?_,
    by rw [hprot, ← hs1]; rfl, by rw [hphase, ← hs1]; rfl, by rw [herase, ← hs1]; rfl, fun hab => ?_,
    fun hab => ⟨?_, ?_⟩⟩
  · unfold State.storeByte
    rw [hmem, ← hs1]
    exact putRow_inside _ _ _ _ hwf hi
  · unfold State.storeByte
    rw [hmem, ← hs1]
    exact putRow_outside _ _ _ _ ha
  · rw [s1.rowSuccess_abandoning hab, ← hs1]
    have hslots := Store.endSession_slots
      (s.setStore { s.store with mem := putRow s.store.mem job job.bytes }).store.idle ss
    rw [Store.endSession_frame]
    exact ⟨rfl, rfl, rfl, rfl, rfl, hslots⟩
  · intro next rest hnext
    have hsess : s1.store.session = some ss := by rw [← hs1]; exact hss
    rw [State.rowSuccess_next hab (hw.trans hnext), Store.beginRow_session hsess, ← hs1]
    exact ⟨rfl, rfl, rfl, rfl, rfl, _, rfl, fun j => mem_joinSlot⟩
  · intro hlast
    rw [State.rowSuccess_last hab (hw.trans hlast), ← hs1]
    cases hcl : ss.closing with
    | none =>
      rw [Store.finishRows_data _ hcl]
      exact ⟨rfl, rfl, rfl, fun _ => ⟨rfl, rfl, by rw [← hcl]; rfl⟩, nofun⟩
    | some length =>
      rw [Store.finishRows_header _ hcl]
      have hslots := Store.listTemplate_slots
        (s.setStore { s.store with mem := putRow s.store.mem job job.bytes }).store ss length
      rw [Store.listTemplate_frame]
      refine ⟨rfl, rfl, rfl, nofun, fun length' hl => ?_⟩
      obtain rfl := Option.some.inj hl
      refine ⟨rfl, hslots, fun e => ?_⟩
      exact (mem_insertEntry e _ _).trans or_comm

/-! ### Failures (R152) -/

theorem State.rowFailure_frame (s : State) (ss : Session) :
    s.rowFailure ss =
      { s with store := (s.rowFailure ss).store, causes := s.causes.set 0 (s.causes[0] ||| 0x02#8) } := by
  unfold State.rowFailure
  split <;> exact State.raiseCtl_frame s _ _

theorem State.rowFailure_sameMemory (s : State) (ss : Session) : s.store.SameMemory (s.rowFailure ss).store := by
  unfold State.rowFailure
  split
  · exact s.store.idle.endSession_sameMemory ss
  · exact ⟨rfl, rfl, rfl, rfl⟩

/-- R158: a data row's failure makes the session FAILED. -/
theorem State.rowFailure_data (s : State) {ss : Session} (hab : ss.abandoning = false) (hcl : ss.closing = none) :
    s.rowFailure ss =
      (s.setStore { s.store.idle with session := some { ss with failed := true } }).raiseCtl causeStoreFault := by
  unfold State.rowFailure
  rw [hab, hcl]
  rfl

/-- R160, R161: a header row's failure, and any failure of an abandoning session, ends the session. -/
theorem State.rowFailure_ends (s : State) {ss : Session} (h : ss.abandoning = true ∨ ss.closing ≠ none) :
    s.rowFailure ss = (s.setStore (s.store.idle.endSession ss)).raiseCtl causeStoreFault := by
  unfold State.rowFailure
  rw [if_pos (h.imp_right isSome_of_ne_none)]

theorem Store.endSession_idle (st : Store) (ss : Session) :
    (st.endSession ss).op = st.op ∧ (st.endSession ss).rowsWaiting = [] ∧
      (st.endSession ss).directory = st.directory := by
  rw [Store.endSession_frame]
  exact ⟨rfl, rfl, rfl⟩

theorem State.rowFailure_idle (s : State) (ss : Session) :
    (s.rowFailure ss).store.op = none ∧ (s.rowFailure ss).store.rowsWaiting = [] ∧
      (s.rowFailure ss).store.directory = s.store.directory := by
  unfold State.rowFailure
  split
  · exact s.store.idle.endSession_idle ss
  · exact ⟨rfl, rfl, rfl⟩

/-- Settles O34: the row's bytes are what the failed program leaves; the session is FAILED or over. -/
theorem rowProgramFails : Obligations.RowProgramFails := by
  intro s job ss hop hss hlen
  have hdone : exec (.rowProgramComplete false) s = .next (s.rowComplete false) := rfl
  rw [State.rowComplete_failure hop hss, State.programRow_failure] at hdone
  have hrow := length_failedRow job _ (s.takeFree_length 64) hlen
  generalize hbytes : failedRow job (s.takeFree 64).1 = bytes at hdone hrow
  generalize hs1 : (s.takeFree 64).2.setStore { s.store with mem := putRow s.store.mem job bytes } = s1 at hdone
  obtain ⟨hmem, hprot, hphase, herase⟩ := s1.rowFailure_sameMemory ss
  obtain ⟨hidle, hwait, hdir⟩ := s1.rowFailure_idle ss
  have hframe := s1.rowFailure_frame ss
  refine ⟨s1.rowFailure ss, hdone, by rw [hframe, ← hs1]; rfl, fun a ha => ?_, by rw [hprot, ← hs1]; rfl,
    by rw [hphase, ← hs1]; rfl, by rw [hdir, ← hs1]; rfl, by rw [herase, ← hs1]; rfl, hidle, hwait,
    fun hab hcl => ?_, fun hend => ?_⟩
  · unfold State.storeByte
    rw [hmem, ← hs1]
    exact putRow_outside _ _ _ _ (by rw [hrow]; exact ha)
  · rw [s1.rowFailure_data hab hcl, ← hs1]
    exact ⟨rfl, rfl⟩
  · rw [s1.rowFailure_ends hend, ← hs1]
    have hslots := Store.endSession_slots
      ((s.takeFree 64).2.setStore { s.store with mem := putRow s.store.mem job bytes }).store.idle ss
    rw [Store.endSession_frame]
    exact ⟨rfl, hslots⟩

/-! ### Slot erases (R143, R163) -/

theorem State.eraseOne_causes (s : State) (slot : Nat) (success : Bool) :
    (s.eraseOne slot success).causes = s.causes.set 0 (s.causes[0] ||| if success then 0x00#8 else 0x02#8) := by
  cases success with
  | true =>
    change s.causes = _
    simp
  | false =>
    have hfree := s.takeFree_causes 2048
    unfold State.eraseOne
    revert hfree
    generalize s.takeFree 2048 = f
    intro hfree
    rw [← hfree]
    rfl

theorem State.eraseComplete_next {s : State} {slot next : Nat} {rest : List Nat}
    (hop : s.store.op = some (.slotErase slot)) (success : Bool)
    (hw : (s.eraseOne slot success).store.erasesWaiting = next :: rest) :
    s.eraseComplete success =
      (s.eraseOne slot success).setStore ((s.eraseOne slot success).store.beginErase next rest) := by
  unfold State.eraseComplete
  rw [hop]
  dsimp only
  rw [hw]

theorem State.eraseComplete_last {s : State} {slot : Nat} (hop : s.store.op = some (.slotErase slot)) (success : Bool)
    (hw : (s.eraseOne slot success).store.erasesWaiting = []) :
    s.eraseComplete success =
      ((s.eraseOne slot success).setStore { (s.eraseOne slot success).store with op := none }).raiseCtl
        causeStoreDone := by
  unfold State.eraseComplete
  rw [hop]
  dsimp only
  rw [hw]

theorem Store.eraseNext_frame (st : Store) :
    ∃ op waiting, st.eraseNext = { st with op := op, erasesWaiting := waiting } := by
  unfold Store.eraseNext
  split
  · exact ⟨_, _, rfl⟩
  · exact ⟨none, _, rfl⟩

/-- R143, R163: what one slot erase leaves of the store. -/
structure Store.ErasedOne (st : Store) (slot : Nat) (success : Bool) (u : Store) : Prop where
  frame : u = { st with mem := u.mem, slots := u.slots }
  outside : ∀ a, inSlot slot a = false → Memory.read storeDefault u.mem a = Memory.read storeDefault st.mem a
  erased : success = true → (∀ a, inSlot slot a = true → Memory.read storeDefault u.mem a = 0xFF#8) ∧
    ∀ k : Fin 64, u.slots[k] = if k.1 = slot then .erased else st.slots[k]
  kept : success = false → u.slots = st.slots

theorem State.eraseOne_spec (s : State) (slot : Nat) (success : Bool) :
    s.store.ErasedOne slot success (s.eraseOne slot success).store := by
  rw [s.eraseOne_store]
  cases success with
  | true =>
    rw [if_pos rfl]
    refine ⟨rfl, fun a => eraseSlot_outside _ _ _, fun _ => ⟨fun a => eraseSlot_inside _ _ _, fun k => ?_⟩, nofun⟩
    simpa using s.store.setSlots_get (fun k => decide (k = slot)) .erased k
  | false =>
    rw [if_neg nofun]
    have hlen : (failedSlot (s.takeFree 2048).1).length ≤ 2048 := by
      rw [length_failedSlot, State.takeFree_length]
    generalize failedSlot (s.takeFree 2048).1 = bytes at hlen
    exact ⟨rfl, fun a ha => putSlot_outside _ _ _ _ hlen ha, nofun, fun _ => rfl⟩

/-- Settles O36: one erase ends, and the next begins or the work is over. -/
theorem slotEraseCompletes : Obligations.SlotEraseCompletes := by
  intro s slot success hop
  have hdone : exec (.slotEraseComplete success) s = .next (s.eraseComplete success) := rfl
  have hcauses := s.eraseOne_causes slot success
  have hframe := s.eraseComplete_storeStep success
  obtain ⟨hkeep, hout, herased, hkept⟩ := s.eraseOne_spec slot success
  have hnext {next : Nat} {rest : List Nat} := State.eraseComplete_next (next := next) (rest := rest) hop success
  have hlast := State.eraseComplete_last hop success
  have hstore := s.eraseComplete_store success hop
  generalize s.eraseOne slot success = s1 at *
  have hw : s1.store.erasesWaiting = s.store.erasesWaiting := by rw [hkeep]
  obtain ⟨op, waiting, hsame⟩ := s1.store.eraseNext_frame
  have hrest : (s.eraseComplete success).store =
      { s.store with mem := s1.store.mem, slots := s1.store.slots, op := op, erasesWaiting := waiting } := by
    rw [hstore, hsame, hkeep]
  refine ⟨s.eraseComplete success, hdone, hframe, by rw [hrest], by rw [hrest], by rw [hrest], by rw [hrest],
    by rw [hrest], fun a ha => ?_, fun hs => ⟨fun a ha => ?_, fun k => ?_⟩, fun hf => ?_, fun next rest hn => ?_,
    fun hn => ?_⟩
  · unfold State.storeByte
    rw [hrest]
    exact hout a ha
  · unfold State.storeByte
    rw [hrest]
    exact (herased hs).1 a ha
  · rw [hrest]
    exact (herased hs).2 k
  · rw [hrest]
    exact hkept hf
  · rw [hnext (hw.trans hn)]
    exact ⟨rfl, rfl, hcauses⟩
  · rw [hlast (hw.trans hn)]
    refine ⟨rfl, hw.trans hn, ?_⟩
    change s1.causes.set 0 (s1.causes[0] ||| causeStoreDone) = _
    rw [hcauses]
    cases success <;> simp [causeStoreDone, BitVec.or_assoc]

end Sys2Proof.Machine
end

section
/-! SUPPORT. The start-up scan: the templates it finds and those it leaves out (O38). -/

namespace Sys2Proof.Machine

/-! ### Header rows (R144) -/

/-- R144: a valid header row read back. -/
theorem headerOf_row {m : Memory} {slot : Nat} {h : Header} (hh : headerOf m slot = some h) :
    Memory.readList storeDefault m (rowAddress slot 0) 64 = h.row := by
  unfold headerOf at hh
  generalize Memory.readList storeDefault m (rowAddress slot 0) 64 = bytes at hh ⊢
  split at hh
  · rename_i form index count hi lo rest
    dsimp only at hh
    split at hh
    · rename_i hv
      cases hh
      rw [hv.2]
      unfold Header.row
      dsimp only
      rw [byte1_toNat, byte1_toNat, bytes2_number]
      rfl
    · cases hh
  · cases hh

/-- R144: a slot with a valid header row does not read 0xFF throughout. -/
theorem headerOf_mark {m : Memory} {slot : Nat} {h : Header} (hh : headerOf m slot = some h) :
    Memory.read storeDefault m (rowAddress slot 0 + 63) = completionMark := by
  have hlt : 63 < (Memory.readList storeDefault m (rowAddress slot 0) 64).length := by
    rw [Memory.length_readList]
    decide
  have hget := Memory.getElem_readList (d := storeDefault) m (rowAddress slot 0) 64 63 hlt
  simp only [headerOf_row hh] at hget
  exact hget.symm

theorem inSlot_mark (slot : Nat) : inSlot slot (rowAddress slot 0 + 63) = true := by
  unfold inSlot rowAddress
  exact decide_eq_true (by omega)

/-! ### The templates left out (R149 steps 2 and 3) -/

/-- R149: what the scan has found it keeps. -/
theorem findTemplates_keeps {m : Memory} {slots : List Nat} {next : Nat} {found : List DirEntry} {d : DirEntry}
    (hd : d ∈ found) : d ∈ findTemplates m slots next found := by
  induction slots generalizing next found with
  | nil => exact hd
  | cons slot slots ih =>
    unfold findTemplates
    split
    · exact ih hd
    · split
      · exact ih hd
      · split
        · exact ih hd
        · exact ih (List.mem_append_left _ hd)

/-- R149: a template that is left out starts in one found before it, or carries the form number of one. -/
theorem findTemplates_complete {m : Memory} {slots : List Nat} {next : Nat} {found : List DirEntry}
    (hasc : slots.Pairwise (· < ·)) (hbelow : ∀ d ∈ found, ∀ k ∈ slots, d.first < k)
    (htaken : ∀ k ∈ slots, k < next → ∃ d ∈ found, d.covers k = true) {k : Nat} (hk : k ∈ slots) {e : DirEntry}
    (he : templateAt m k = some e) :
    e ∈ findTemplates m slots next found ∨
      ∃ d ∈ findTemplates m slots next found, d.first < k ∧ (d.covers k = true ∨ d.form = e.form) := by
  induction slots generalizing next found with
  | nil => cases hk
  | cons slot slots ih =>
    obtain ⟨hlow, hasc⟩ := List.pairwise_cons.mp hasc
    have hbelow' : ∀ d ∈ found, ∀ k ∈ slots, d.first < k := fun d hd j hj => hbelow d hd j (List.mem_cons_of_mem _ hj)
    have htaken' : ∀ k ∈ slots, k < next → ∃ d ∈ found, d.covers k = true :=
      fun j hj => htaken j (List.mem_cons_of_mem _ hj)
    have hrest := ih hasc hbelow' htaken'
    unfold findTemplates
    split
    · rename_i hnext
      rcases List.mem_cons.mp hk with rfl | hk
      · obtain ⟨d, hd, hcov⟩ := htaken k hk hnext
        exact .inr ⟨d, findTemplates_keeps hd, hbelow d hd k hk, .inl hcov⟩
      · exact hrest hk
    · split
      · rename_i hnone
        rcases List.mem_cons.mp hk with rfl | hk
        · cases hnone.symm.trans he
        · exact hrest hk
      · rename_i x hx
        split
        · rename_i hform
          rcases List.mem_cons.mp hk with rfl | hk
          · obtain rfl := Option.some.inj (hx.symm.trans he)
            obtain ⟨d, hd, hsame⟩ := List.any_eq_true.mp hform
            exact .inr ⟨d, findTemplates_keeps hd, hbelow d hd k hk, .inr (beq_iff_eq.mp hsame)⟩
          · exact hrest hk
        · rcases List.mem_cons.mp hk with rfl | hk
          · obtain rfl := Option.some.inj (hx.symm.trans he)
            exact .inl (findTemplates_keeps (List.mem_append_right _ (List.mem_singleton_self x)))
          · obtain ⟨hfirst, -⟩ := templateAt_spec hx
            refine ih hasc (fun d hd j hj => ?_)
              (fun j hj hnext => ⟨x, List.mem_append_right _ (List.mem_singleton_self x), ?_⟩) hk
            · rcases List.mem_append.mp hd with hd | hd
              · exact hbelow' d hd j hj
              · rw [List.mem_singleton.mp hd, hfirst]
                exact hlow j hj
            · rw [DirEntry.covers_iff, hfirst]
              exact ⟨(hlow j hj).le, hnext⟩

theorem scanDirectory_complete {m : Memory} {k : Nat} (hk : k < 64) {e : DirEntry} (he : templateAt m k = some e) :
    e ∈ scanDirectory m ∨ ∃ d ∈ scanDirectory m, d.first < k ∧ (d.covers k = true ∨ d.form = e.form) :=
  findTemplates_complete List.pairwise_lt_range (fun _ hd => absurd hd List.not_mem_nil)
    (fun _ _ hj => absurd hj (Nat.not_lt_zero _)) (List.mem_range.mpr hk) he

/-! ### ERASED and DIRTY slots (R149, R150) -/

/-- R149: a slot of a listed template carries its header row. -/
theorem scanDirectory_header {m : Memory} {e : DirEntry} (he : e ∈ scanDirectory m) {j : Nat} (hj : j < e.count) :
    headerOf m (e.first + j) = some { form := e.form, index := j, count := e.count, length := e.length } := by
  obtain ⟨-, -, -, -, -, hrows⟩ := templateAt_spec ((scanDirectory_sound m).2 e he)
  exact hrows j hj

theorem scanSlot_erased_iff {m : Memory} (hwf : Memory.wf storeDefault m) (k : Nat) :
    scanSlot m (scanDirectory m) k = .erased ↔ slotErased m k = true := by
  refine ⟨(scanSlot_known m k).2.2, fun herased => ?_⟩
  rcases scanSlot_cases m k with ⟨e, he, hcov, -⟩ | ⟨-, hv⟩
  · obtain ⟨hlow, hhigh⟩ := (e.covers_iff k).mp hcov
    have hmark := headerOf_mark (scanDirectory_header he (j := k - e.first) (by omega))
    rw [Nat.add_sub_cancel' hlow, (slotErased_iff m k hwf).mp herased _ (inSlot_mark k)] at hmark
    exact absurd hmark (by decide)
  · rw [hv, if_pos herased]

theorem Store.countSlots_zero (st : Store) (v : SlotState) :
    st.countSlots v = 0 ↔ ∀ k : Fin 64, st.slots[k] ≠ v := by
  unfold Store.countSlots
  rw [List.length_eq_zero_iff, List.filter_eq_nil_iff]
  constructor
  · intro h k hk
    exact h st.slots[k] (by simp) (by simp [hk])
  · intro h x hx
    obtain ⟨i, hi, rfl⟩ := List.mem_iff_getElem.mp hx
    simpa using h ⟨i, by simpa using hi⟩

/-- Settles O38: the scan's directory is sound and complete, and its slots agree with the memory. -/
theorem startUpScanFindsTemplates : Obligations.StartUpScanFindsTemplates := by
  rintro s hop ⟨hwf, -⟩
  have hdone : exec .startUpScanComplete s = .next s.scanComplete := rfl
  have hscan : s.scanComplete =
      if s.store.scanned.countSlots .dirty = 0 then s.setStore s.store.scanned
      else (s.setStore s.store.scanned).raiseCtl causeScanDirty := by
    unfold State.scanComplete
    rw [hop]
    rfl
  have hstore : s.scanComplete.store = s.store.scanned := by
    rw [hscan]
    split <;> rfl
  have hslot (k : Fin 64) : s.scanComplete.store.slots[k] = scanSlot s.store.mem (scanDirectory s.store.mem) k.1 := by
    rw [hstore, Store.scanned_slot]
  have hframe : s.scanComplete = { s with store := s.scanComplete.store, causes := s.scanComplete.causes } := by
    rw [hscan]
    split <;> rfl
  refine ⟨s.scanComplete, hdone, hframe, by rw [hstore]; rfl, by rw [hstore]; rfl, by rw [hstore]; rfl,
    by rw [hstore]; rfl, by rw [hstore]; rfl, ?_, ?_, ?_, fun k => ?_, fun ⟨k, hk⟩ => ?_, fun hclean => ?_⟩
  · rw [hstore]
    exact s.store.scanned_directorySound
  · rw [hstore]
    exact fun e he j hj => headerOf_row (scanDirectory_header he hj)
  · rw [hstore]
    exact fun k e hk he => scanDirectory_complete hk he
  · obtain ⟨hload, hunknown, -⟩ := scanSlot_known s.store.mem k.1
    rw [hslot]
    exact ⟨(scanSlot_erased_iff hwf k.1).trans (slotErased_iff _ _ hwf), hunknown, hload⟩
  · rw [hscan, if_neg fun h => (Store.countSlots_zero _ _).mp h k (hstore ▸ hk)]
    rfl
  · rw [hscan, if_pos ((Store.countSlots_zero _ _).mpr fun k => hstore ▸ hclean k)]
    rfl

end Sys2Proof.Machine
end

section
/-! SUPPORT. Template images: what the checks of LOAD CLOSE leave of an image, and the sheet it builds (O31). -/

namespace Sys2Proof.Machine

theorem imageByte_lt (image : List Byte) (i : Nat) : imageByte image i < 256 := (image.getD i 0x00#8).isLt

/-! ### The checks passed (R154) -/

/-- R154 checks 1 to 6 passed. -/
theorem headerFault_none {image : List Byte} {form : Byte} {closing rowsLoaded : Nat}
    (h : headerFault image form closing rowsLoaded = none) :
    (24 ≤ imageByte image 1 ∧ imageByte image 1 ≤ 72) ∧ imageByte image 2 ≤ 8 := by
  unfold headerFault at h
  repeat' split at h
  case isFalse.isFalse.isFalse.isFalse.isFalse.isFalse.isFalse => omega
  all_goals cases h

/-- R154 checks 8 to 10 passed by one record. -/
theorem recordFault_none {image : List Byte} {size i prevEnd : Nat} {seen : List Nat}
    (h : recordFault image size i seen prevEnd = none) :
    (1 ≤ imageByte (fieldRecord image i) 0 ∧ imageByte (fieldRecord image i) 0 ≤ 160) ∧
      imageByte (fieldRecord image i) 0 ∉ seen ∧ 1 ≤ imageByte (fieldRecord image i) 3 ∧
      imageWord (fieldRecord image i) 1 + imageByte (fieldRecord image i) 3 ≤ size ∧
      prevEnd ≤ imageWord (fieldRecord image i) 1 ∧ imageByte (fieldRecord image i) 5 ≤ 15 := by
  unfold recordFault at h
  dsimp only at h
  split at h
  · cases h
  · rename_i hnum
    split at h
    · cases h
    · rename_i hplace
      split at h
      · cases h
      · rename_i hcls
        obtain ⟨hlow, hhigh, hseen⟩ : _ ∧ _ ∧ _ := by simpa only [not_or] using hnum
        exact ⟨by omega, hseen, by omega⟩

/-- R154: the checks passed. -/
theorem imageFault_none {image : List Byte} {form : Byte} {closing rowsLoaded : Nat}
    (h : imageFault image form closing rowsLoaded = none) :
    headerFault image form closing rowsLoaded = none ∧ (∃ runs, imageRuns image = some (runs, closing)) ∧
      recordsFault image (imageByte image 1 * 80) (imageByte image 4) 0 [] 0 = none ∧ initialFault image = none := by
  unfold imageFault at h
  split at h
  · cases h
  · rename_i hheader
    split at h
    · cases h
    · rename_i runs after hruns
      split at h
      · cases h
      · rename_i hafter
        rw [not_not] at hafter
        rw [Option.or_eq_none_iff, Option.or_eq_none_iff] at h
        exact ⟨hheader, ⟨runs, hafter ▸ hruns⟩, h.1.1, h.1.2⟩

/-- R153: the text runs end at or after the offset they start from. -/
theorem textRuns_le {k off after : Nat} {bytes : List Byte} {runs : List (Nat × Nat × List Byte)}
    (h : textRuns k off bytes = some (runs, after)) : off ≤ after := by
  induction k generalizing off bytes runs with
  | zero => cases h; exact Nat.le_refl _
  | succ k ih =>
    match bytes, h with
    | [], h => cases h
    | [_], h => cases h
    | [_, _], h => cases h
    | hi :: lo :: n :: rest, h =>
      unfold textRuns at h
      split at h
      · cases h
      · obtain ⟨r, hr, heq⟩ := Option.map_eq_some_iff.mp h
        cases heq
        have := ih hr
        omega

/-! ### Field records (R153) -/

theorem exists_of_length_eight {l : List Byte} (h : l.length = 8) :
    ∃ a b c d e f g z, l = [a, b, c, d, e, f, g, z] := by
  match l, h with
  | [a, b, c, d, e, f, g, z], _ => exact ⟨a, b, c, d, e, f, g, z, rfl⟩

/-- R153: a whole record of a class names a field. -/
theorem templateField_record {image : List Byte} {i : Nat} (hlen : 16 + 8 * i + 8 ≤ image.length)
    (hcls : imageByte (fieldRecord image i) 5 ≤ 15) :
    ∃ f, templateField image i = some f ∧ f.number = imageByte (fieldRecord image i) 0 ∧
      f.start = imageWord (fieldRecord image i) 1 ∧ f.length = imageByte (fieldRecord image i) 3 := by
  have hrec : (fieldRecord image i).length = 8 := by
    unfold fieldRecord
    rw [List.length_take, List.length_drop]
    omega
  obtain ⟨k, hi, lo, n, p, c, f, z, hr⟩ := exists_of_length_eight hrec
  unfold templateField
  rw [hr] at hcls ⊢
  have hclass : classOf c = some ⟨c.toNat, Nat.lt_succ_of_le hcls⟩ := dif_pos (Nat.lt_succ_of_le hcls)
  dsimp only
  rw [hclass]
  refine ⟨_, rfl, rfl, ?_, rfl⟩
  simp [number, imageWord, imageByte]

theorem length_insertByStart (f : Field) (fs : List Field) : (insertByStart f fs).length = fs.length + 1 := by
  induction fs with
  | nil => rfl
  | cons g fs ih =>
    unfold insertByStart
    split
    · rfl
    · rw [List.length_cons, ih, List.length_cons]

/-- R54, R154: records that pass the checks are all inserted. -/
theorem Sheet.insertRecords_all {image : List Byte} {k i prevEnd : Nat} {seen : List Nat} {sh : Sheet}
    (hlen : 16 + 8 * (i + k) ≤ image.length)
    (hsh : ∀ g ∈ sh.fields, g.number ∈ seen ∧ g.start + g.length ≤ prevEnd)
    (h : recordsFault image sh.size k i seen prevEnd = none) :
    (Sheet.insertRecords image (List.range' i k) sh).fields.length = sh.fields.length + k ∧
      (∀ g ∈ sh.fields, g ∈ (Sheet.insertRecords image (List.range' i k) sh).fields) ∧
      ∀ j, i ≤ j → j < i + k → ∃ f, templateField image j = some f ∧ f.number = imageByte (fieldRecord image j) 0 ∧
        f ∈ (Sheet.insertRecords image (List.range' i k) sh).fields := by
  induction k generalizing i prevEnd seen sh with
  | zero => exact ⟨rfl, fun g hg => hg, fun j hlow hhigh => by omega⟩
  | succ k ih =>
    unfold recordsFault at h
    split at h
    · cases h
    · rename_i hfault
      obtain ⟨hnum, hnew, hpos, hend, hstart, hcls⟩ := recordFault_none hfault
      obtain ⟨f, hf, hfn, hfs, hfl⟩ := templateField_record (image := image) (i := i) (by omega) hcls
      have haccept : sh.accepts f = true := by
        have := imageByte_lt (fieldRecord image i) 3
        rw [Sheet.accepts_iff, hfn, hfs, hfl]
        refine ⟨hnum, by omega, hend, fun g hg => ⟨fun hc => hnew (hc ▸ (hsh g hg).1), .inr ?_⟩⟩
        exact (hsh g hg).2.trans hstart
      have hsh' : ∀ g ∈ (sh.insertField f).fields, g.number ∈ imageByte (fieldRecord image i) 0 :: seen ∧
          g.start + g.length ≤ imageWord (fieldRecord image i) 1 + imageByte (fieldRecord image i) 3 := by
        intro g hg
        rcases (mem_insertByStart f g _).mp hg with rfl | hg
        · exact ⟨List.mem_cons.mpr (.inl hfn), by rw [hfs, hfl]⟩
        · obtain ⟨hg, hle⟩ := hsh g hg
          exact ⟨List.mem_cons_of_mem _ hg, by omega⟩
      obtain ⟨hcount, hkeep, hall⟩ := ih (sh := sh.insertField f) (by omega) hsh' h
      rw [List.range'_succ]
      unfold Sheet.insertRecords
      rw [hf]
      dsimp only
      rw [if_pos haccept]
      refine ⟨?_, fun g hg => hkeep g ((mem_insertByStart f g _).mpr (.inr hg)), fun j hlow hhigh => ?_⟩
      · rw [hcount]
        unfold Sheet.insertField
        rw [length_insertByStart]
        omega
      · rcases Nat.eq_or_lt_of_le hlow with rfl | hlow
        · exact ⟨f, hf, hfn, hkeep f ((mem_insertByStart f f _).mpr (.inl rfl))⟩
        · exact hall j hlow (by omega)

/-- R154 check 11 passed: the initial field is one of the records. -/
theorem initialFault_none {image : List Byte} (h : initialFault image = none) :
    imageByte image 3 ≠ 0 → imageByte image 3 ∈ recordNumbers image := by
  unfold initialFault at h
  split at h
  · cases h
  · rename_i hc
    exact fun hne => Classical.not_not.mp fun hno => hc ⟨hne, hno⟩

/-- What `templateSheet` takes from its image. -/
theorem templateSheet_frame (image : List Byte) :
    let base := Sheet.blank (clamp 24 72 (imageByte image 1)) (clamp 0 8 (imageByte image 2))
    (templateSheet image).rows = base.rows ∧ (templateSheet image).header = base.header ∧
      (templateSheet image).fields = (Sheet.insertRecords image (List.range (imageByte image 4)) base).fields ∧
      (templateSheet image).cursor =
        (((templateSheet image).fieldNumbered (imageByte image 3)).map Field.start).getD 0 := by
  unfold templateSheet
  dsimp only
  rw [Sheet.writeRuns_frame]
  rw [Sheet.insertRecords_frame]
  exact ⟨rfl, rfl, rfl, rfl⟩

/-- Settles O31: the records are all inserted, and the initial field is one of them. -/
theorem validImageBuildsSoundSheet : Obligations.ValidImageBuildsSoundSheet := by
  intro image form rowsLoaded h
  obtain ⟨hheader, ⟨runs, hruns⟩, hrecords, hinitial⟩ := imageFault_none h
  obtain ⟨hrows, hhead⟩ := headerFault_none hheader
  obtain ⟨hr, hh, hfields, hcursor⟩ := templateSheet_frame image
  have hclamp : clamp 24 72 (imageByte image 1) = imageByte image 1 := by unfold clamp; omega
  have hclamp' : clamp 0 8 (imageByte image 2) = imageByte image 2 := by unfold clamp; omega
  rw [hclamp, hclamp'] at hr hh hfields
  have hlen := textRuns_le hruns
  unfold runsOffset at hlen
  obtain ⟨hcount, -, hall⟩ := Sheet.insertRecords_all (image := image) (i := 0)
    (sh := Sheet.blank (imageByte image 1) (imageByte image 2)) (by omega) (fun g hg => (nomatch hg)) hrecords
  rw [← List.range_eq_range', ← hfields] at hcount hall
  refine ⟨templateSheet_sound image, hcount.trans (Nat.zero_add _), hr, hh, fun i hi f hf => ?_, fun hne => ?_⟩
  · obtain ⟨g, hg, -, hmem⟩ := hall i (Nat.zero_le _) (by omega)
    obtain rfl := Option.some.inj (hg.symm.trans hf)
    exact hmem
  · obtain ⟨i, hi, hnum⟩ := List.mem_map.mp (initialFault_none hinitial hne)
    obtain ⟨g, -, hgn, hmem⟩ := hall i (Nat.zero_le _) (by have := List.mem_range.mp hi; omega)
    cases hfind : (templateSheet image).fieldNumbered (imageByte image 3) with
    | none => exact absurd (hgn.trans hnum) (by simpa using List.find?_eq_none.mp hfind g hmem)
    | some f =>
      obtain ⟨hf, hfn⟩ := Sheet.fieldNumbered_some hfind
      rw [hfind] at hcursor
      exact ⟨f, hf, hfn, hcursor⟩

end Sys2Proof.Machine
end

section
/-! SUPPORT. WRITE: what phase 1 refuses, and the AT, TEXT and FIELD directives (O39 to O41). -/

namespace Sys2Proof.Machine

/-! ### Phase 1, directive by directive (R48, R53) -/

theorem parseDirective_unknown {code : Byte} (h : code.toNat = 0 ∨ 0x12 < code.toNat) (bytes : List Byte) :
    parseDirective code bytes = .unknown := by
  unfold parseDirective
  split
  case h_19 => exact if_neg (by omega)
  all_goals
    exfalso
    rename_i hcode
    omega

theorem operandBytes_range {code : Byte} {k : Nat} (h : operandBytes code = some k) :
    1 ≤ code.toNat ∧ code.toNat ≤ 0x12 := by
  unfold operandBytes at h
  split at h
  case h_17 => cases h
  all_goals
    rename_i hcode
    rw [hcode]
    decide

theorem countedCode_iff {code : Byte} : countedCode code = true ↔ code = 0x06#8 ∨ code = 0x11#8 := by
  simp [countedCode]

/-- R53: a directive of a fixed size, all its operands there. -/
theorem parseDirective_fixed {code : Byte} {k : Nat} (h : operandBytes code = some k) {ops : List Byte}
    (hlen : ops.length = k) :
    ∃ d, (∀ more, parseDirective code (ops ++ more) = .found d more) ∧ (d.isForm = true → code.toNat = 1) := by
  unfold operandBytes at h
  unfold parseDirective
  split at h
  case h_17 => cases h
  all_goals
    rename_i hcode
    cases h
    rw [hcode]
  case h_1 => match ops, hlen with | [_], _ => exact ⟨_, fun _ => rfl, fun _ => rfl⟩
  case h_2 => match ops, hlen with | [_, _], _ => exact ⟨_, fun _ => rfl, nofun⟩
  case h_3 => match ops, hlen with | [_, _], _ => exact ⟨_, fun _ => rfl, nofun⟩
  case h_4 => match ops, hlen with | [_], _ => exact ⟨_, fun _ => rfl, nofun⟩
  case h_5 => match ops, hlen with | [_, _], _ => exact ⟨_, fun _ => rfl, nofun⟩
  case h_6 => match ops, hlen with | [_, _, _], _ => exact ⟨_, fun _ => rfl, nofun⟩
  case h_7 => match ops, hlen with | [_, _, _, _, _, _, _], _ => exact ⟨_, fun _ => rfl, nofun⟩
  case h_8 => match ops, hlen with | [_], _ => exact ⟨_, fun _ => rfl, nofun⟩
  case h_9 => match ops, hlen with | [_, _, _, _], _ => exact ⟨_, fun _ => rfl, nofun⟩
  case h_10 => match ops, hlen with | [_, _], _ => exact ⟨_, fun _ => rfl, nofun⟩
  case h_11 => match ops, hlen with | [_], _ => exact ⟨_, fun _ => rfl, nofun⟩
  case h_12 => match ops, hlen with | [_], _ => exact ⟨_, fun _ => rfl, nofun⟩
  case h_13 => match ops, hlen with | [_], _ => exact ⟨_, fun _ => rfl, nofun⟩
  case h_14 => match ops, hlen with | [], _ => exact ⟨_, fun _ => rfl, nofun⟩
  case h_15 => match ops, hlen with | [], _ => exact ⟨_, fun _ => rfl, nofun⟩
  case h_16 => match ops, hlen with | [_, _, _, _, _], _ => exact ⟨_, fun _ => rfl, nofun⟩

theorem parseDirective_text (bytes : List Byte) : parseDirective 0x06#8 bytes = parseCounted .text bytes := rfl

theorem parseCounted_found (make : List Byte → Directive) {n : Byte} {chars : List Byte} (h : chars.length = n.toNat)
    (more : List Byte) : parseCounted make (n :: chars ++ more) = .found (make chars) more := by
  unfold parseCounted
  dsimp only [List.cons_append]
  rw [if_neg (by rw [List.length_append]; omega), ← h, List.take_left, List.drop_left]

theorem parseCounted_cut (make : List Byte → Directive) {n : Byte} {chars : List Byte} (h : chars.length < n.toNat) :
    parseCounted make (n :: chars) = .cut := if_pos h

/-- R48, R53: phase 1 finds a whole directive and goes on behind it. -/
theorem parseDirective_whole {code : Byte} {ops : List Byte} (h : wholeDirective (code :: ops) = true) :
    ∃ d, (∀ more, parseDirective code (ops ++ more) = .found d more) ∧ (d.isForm = true → code.toNat = 1) := by
  unfold wholeDirective at h
  dsimp only at h
  split at h
  · rename_i k hk
    exact parseDirective_fixed hk (beq_iff_eq.mp h)
  · cases h
  · rename_i n chars _
    obtain ⟨hcode, hlen⟩ := Bool.and_eq_true_iff.mp h
    have hlen := beq_iff_eq.mp hlen
    rcases countedCode_iff.mp hcode with rfl | rfl
    · exact ⟨.text chars, parseCounted_found .text hlen, nofun⟩
    · exact ⟨.message chars, parseCounted_found .message hlen, nofun⟩

/-- R48, R53: phase 1 finds too few bytes for the operands. -/
theorem parseDirective_cut {code : Byte} {bytes : List Byte} (h : cutDirective code bytes = true) :
    parseDirective code bytes = .cut := by
  unfold cutDirective at h
  split at h
  · rename_i k hk
    have hlt := of_decide_eq_true h
    have hrange := operandBytes_range hk
    unfold operandBytes at hk
    unfold parseDirective
    split
    case h_19 => exact if_pos hrange
    all_goals
      exfalso
      rename_i hcode
      rw [hcode] at hk
      cases hk
    all_goals exact absurd hlt (by simp)
  · rcases countedCode_iff.mp h with rfl | rfl
    · rfl
    · rfl
  · obtain ⟨hcode, hlt⟩ := Bool.and_eq_true_iff.mp h
    have hlt := of_decide_eq_true hlt
    rcases countedCode_iff.mp hcode with rfl | rfl
    · exact parseCounted_cut .text hlt
    · exact parseCounted_cut .message hlt

/-! ### Phase 1 over a run of directives (R48) -/

theorem wholeDirective_length {d : List Byte} (h : wholeDirective d = true) : 1 ≤ d.length := by
  cases d with
  | nil => cases h
  | cons code ops => exact Nat.succ_pos _

/-- Phase 1 passes a whole directive, if it is no FORM or the store is idle, and goes on behind it. -/
theorem walkStream_whole {busy : Bool} {d : List Byte} (hwhole : wholeDirective d = true)
    (hform : d.head? = some 0x01#8 → busy = false) :
    ∃ dir, ∀ fuel offset more, walkStream busy (fuel + 1) offset (d ++ more) =
      (walkStream busy fuel (offset + d.length) more).map fun ds => (offset, dir) :: ds := by
  cases d with
  | nil => cases hwhole
  | cons code ops =>
    obtain ⟨dir, hparse, hisForm⟩ := parseDirective_whole hwhole
    have hpass : (dir.isForm && busy) = false := by
      cases hf : dir.isForm with
      | false => rfl
      | true => exact hform (congrArg some (BitVec.eq_of_toNat_eq (hisForm hf)))
    refine ⟨dir, fun fuel offset more => ?_⟩
    have hoffset : offset + 1 + ((ops ++ more).length - more.length) = offset + (code :: ops).length := by
      rw [List.length_append, List.length_cons]
      omega
    rw [List.cons_append]
    rw [walkStream, hparse]
    dsimp only
    rw [hpass, hoffset, if_neg nofun]
    cases walkStream busy fuel (offset + (code :: ops).length) more <;> rfl

section
variable {busy : Bool} {before : List (List Byte)}
  (hbefore : ∀ d ∈ before, wholeDirective d = true ∧ (d.head? = some 0x01#8 → busy = false))
include hbefore

/-- R48: phase 1 fails where the bytes after a run of whole directives fail. -/
theorem walkStream_error {tail : List Byte} {r : Reply} {offset : Nat}
    (htail : ∀ fuel, tail.length ≤ fuel → walkStream busy fuel (offset + before.flatten.length) tail = .error r) :
    ∀ fuel, (before.flatten ++ tail).length ≤ fuel →
      walkStream busy fuel offset (before.flatten ++ tail) = .error r := by
  induction before generalizing offset with
  | nil => exact htail
  | cons d before ih =>
    obtain ⟨⟨hwhole, hform⟩, hrest⟩ := List.forall_mem_cons.mp hbefore
    have hpos : 1 ≤ d.length := wholeDirective_length hwhole
    intro fuel hfuel
    rw [List.flatten_cons, List.append_assoc] at hfuel ⊢
    rw [List.length_append] at hfuel
    obtain ⟨fuel, rfl⟩ := Nat.exists_eq_add_of_le' (show 1 ≤ fuel by omega)
    obtain ⟨dir, hwalk⟩ := walkStream_whole hwhole hform
    rw [hwalk, ih hrest (fun fuel hfuel => ?_) fuel (by omega)]
    · rfl
    · rw [Nat.add_assoc, ← List.length_append, ← List.flatten_cons]
      exact htail fuel hfuel

/-- R48: phase 1 passes a run of whole directives. -/
theorem walkStream_passes {offset : Nat} :
    ∀ fuel, before.flatten.length ≤ fuel → ∃ ds, walkStream busy fuel offset before.flatten = .ok ds := by
  induction before generalizing offset with
  | nil =>
    intro fuel _
    exact ⟨[], by cases fuel <;> rfl⟩
  | cons d before ih =>
    obtain ⟨⟨hwhole, hform⟩, hrest⟩ := List.forall_mem_cons.mp hbefore
    have hpos : 1 ≤ d.length := wholeDirective_length hwhole
    intro fuel hfuel
    rw [List.flatten_cons] at hfuel ⊢
    rw [List.length_append] at hfuel
    obtain ⟨fuel, rfl⟩ := Nat.exists_eq_add_of_le' (show 1 ≤ fuel by omega)
    obtain ⟨dir, hwalk⟩ := walkStream_whole hwhole hform
    obtain ⟨ds, hds⟩ := ih hrest (offset := offset + d.length) fuel (by omega)
    exact ⟨(offset, dir) :: ds, by rw [hwalk, hds]; rfl⟩

end

/-! ### WRITE frames that are refused before phase 2 (R46, R48, R49) -/

theorem exec_write_refused {s : State} {n : StationIx} (hs : s.Serving) {payload : List Byte}
    (hlen : payload.length ≤ 2048) {reason : Reason} {subcode detail : Nat}
    (h : handleWrite n payload s.byteSeen.hunt = (refuse reason subcode detail, s.byteSeen.hunt)) :
    exec (.write (stationByte n) payload) s =
      .next (s.withRefusal (stationByte n) reason.code (byte1 subcode) detail) := by
  have hexec := exec_serving hs .write (stationByte n) hlen
  rw [State.handle, toStation_stationByte] at hexec
  refine hexec.trans ?_
  rw [h, respond_refuse]

section
variable {s : State} {n : StationIx}

theorem handleWrite_disabled (h : (s.station n).link = .disabled) (payload : List Byte) :
    handleWrite n payload s = (refuse .stationDisabled 0 0, s) := if_pos h

variable (h : (s.station n).link ≠ .disabled)
include h

theorem handleWrite_empty : handleWrite n [] s = (refuse .badLength 0 0, s) := if_neg h

theorem handleWrite_pending {flags : Byte} (hp : (s.station n).releasePending = true) (hd : flags.getLsbD 4 = false)
    (stream : List Byte) :
    handleWrite n (flags :: stream) s = (refuse .releasePending 0 (s.station n).input.code.toNat, s) := by
  unfold handleWrite flagDiscard
  rw [if_neg h]
  dsimp only
  rw [hp, hd]
  rfl

/-- R48: a failure of phase 1 refuses the frame. -/
theorem handleWrite_error {flags : Byte} (hp : ((s.station n).releasePending && !flagDiscard flags) = false)
    {stream : List Byte} {r : Reply} (hwalk : walkStream s.store.op.isSome stream.length 1 stream = .error r) :
    handleWrite n (flags :: stream) s = (r, s) := by
  unfold handleWrite
  rw [if_neg h]
  dsimp only
  rw [hp, hwalk]
  rfl

end

theorem Station.releasePending_of {st : Station} (h : st.input = .released ∨ st.input = .roomWait) :
    st.releasePending = true := by
  simpa [Station.releasePending] using h

/-- R48: phase 1 at a code it refuses. -/
theorem walkStream_unknown {code : Byte} {bytes : List Byte} (h : parseDirective code bytes = .unknown) (busy : Bool)
    (offset : Nat) :
    ∀ fuel, (code :: bytes).length ≤ fuel → walkStream busy fuel offset (code :: bytes) =
      .error (refuse .directiveError 1 offset) := by
  rintro (- | fuel) hfuel
  · cases hfuel
  · rw [walkStream, h]
    rfl

theorem walkStream_cut {code : Byte} {bytes : List Byte} (h : parseDirective code bytes = .cut) (busy : Bool)
    (offset : Nat) :
    ∀ fuel, (code :: bytes).length ≤ fuel → walkStream busy fuel offset (code :: bytes) =
      .error (refuse .directiveError 2 offset) := by
  rintro (- | fuel) hfuel
  · cases hfuel
  · rw [walkStream, h]
    rfl

theorem walkStream_form (f : Byte) (bytes : List Byte) (offset : Nat) :
    ∀ fuel, (0x01#8 :: f :: bytes).length ≤ fuel → walkStream true fuel offset (0x01#8 :: f :: bytes) =
      .error (refuse .storeBusy 0 offset) := by
  rintro (- | fuel) hfuel
  · cases hfuel
  · rfl

/-- Settles O39: the checks before the stream, and phase 1 at the first directive after a run of whole ones. -/
theorem writeRefusedBeforeItChangesAnything : Obligations.WriteRefusedBeforeItChangesAnything := by
  intro s n hs
  refine ⟨fun hdis payload hlen =>
      exec_write_refused hs hlen (handleWrite_disabled (s := s.byteSeen.hunt) hdis payload),
    fun hlink => ⟨exec_write_refused hs (Nat.zero_le _) (handleWrite_empty (s := s.byteSeen.hunt) hlink),
      fun flags stream hlen => ?_⟩⟩
  have hlen : (flags :: stream).length ≤ 2048 := Nat.succ_le_succ hlen
  refine ⟨fun hp hd => exec_write_refused hs hlen (handleWrite_pending (s := s.byteSeen.hunt) hlink
    (Station.releasePending_of hp) hd stream), fun hp before code rest hbefore hstream => ?_⟩
  have hreach : ((s.station n).releasePending && !flagDiscard flags) = false := by
    rcases hp with ⟨hrel, hroom⟩ | hd
    · simp [Station.releasePending, hrel, hroom]
    · simp [flagDiscard, hd]
  have hphase : ∀ d ∈ before, wholeDirective d = true ∧ (d.head? = some 0x01#8 → s.store.op.isSome = false) :=
    fun d hd => ⟨(hbefore d hd).1, fun hf => by rw [(hbefore d hd).2 hf]; rfl⟩
  have refused {r : Reason} {sub : Nat} (hfail : ∀ fuel, (code :: rest).length ≤ fuel →
      walkStream s.store.op.isSome fuel (1 + before.flatten.length) (code :: rest) =
        .error (refuse r sub (1 + before.flatten.length))) :
      exec (.write (stationByte n) (flags :: stream)) s =
        .next (s.withRefusal (stationByte n) r.code (byte1 sub) (1 + before.flatten.length)) := by
    refine exec_write_refused hs hlen (handleWrite_error (s := s.byteSeen.hunt) hlink hreach ?_)
    rw [hstream]
    exact walkStream_error hphase hfail _ (Nat.le_refl _)
  refine ⟨fun hcode => refused (walkStream_unknown (parseDirective_unknown hcode rest) _ _),
    fun hcut => refused (walkStream_cut (parseDirective_cut hcut) _ _), fun hform hne hop =>
      refused (r := .storeBusy) (sub := 0) ?_⟩
  subst hform
  rw [isSome_of_ne_none hop]
  obtain ⟨f, bytes, rfl⟩ := List.exists_cons_of_ne_nil hne
  exact walkStream_form f bytes _

end Sys2Proof.Machine
end

section
/-! SUPPORT. WRITE: the AT, TEXT and FIELD directives (O40, O41). -/

namespace Sys2Proof.Machine

/-! ### AT and TEXT (R55 to R57) -/

theorem walkStream_pointer_text (busy : Bool) {a : Nat} (ha : a < 65536) {chars : List Byte}
    (hlen : chars.length ≤ 255) :
    walkStream busy (chars.length + 5) 1 (0x03#8 :: (bytes2 a ++ 0x06#8 :: byte1 chars.length :: chars)) =
      .ok [(1, .setPointer a), (4, .text chars)] := by
  have hpointer : parseDirective 0x03#8 (bytes2 a ++ 0x06#8 :: byte1 chars.length :: chars) =
      .found (.setPointer a) (0x06#8 :: byte1 chars.length :: chars) :=
    congrArg (fun k => Parsed.found (.setPointer k) (0x06#8 :: byte1 chars.length :: chars)) (number_pair ha)
  have htext : parseDirective 0x06#8 (byte1 chars.length :: chars) = .found (.text chars) [] := by
    have hcount : chars.length = (byte1 chars.length).toNat := (byte1_toNat_of_lt (by omega)).symm
    have hfound := parseCounted_found .text hcount []
    rw [List.append_nil] at hfound
    exact (parseDirective_text _).trans hfound
  have hoffset : 1 + 1 + ((bytes2 a ++ 0x06#8 :: byte1 chars.length :: chars).length -
      (0x06#8 :: byte1 chars.length :: chars).length) = 4 := by
    rw [List.length_append, length_bytes2]
    omega
  refine walkStream_found hpointer rfl ?_
  rw [hoffset]
  refine walkStream_found htext rfl ?_
  cases chars <;> rfl

theorem applyDirective_setPointer (store : Store) (w : Writer) {st : Station} {a : Nat} (h : a < st.sheet.size) :
    applyDirective store w st (.setPointer a) = .ok ({ w with pointer := a }, st) := if_pos h

/-- R57: a TEXT from the start of the counts. -/
theorem writeText_counts {a : Nat} {st : Station} {chars : List Byte} (hlen : chars.length ≤ 255) {written : Nat}
    (hw : written = min chars.length (st.sheet.size - a)) :
    writeText { pointer := a, truncated := 0, substituted := 0 } st chars =
      ({ pointer := a + written, truncated := chars.length - written
         substituted := ((chars.take written).filter fun b => !printable b).length },
        st.putCells a ((chars.take written).map toPrintable)) := by
  have htake : chars.take (st.sheet.size - a) = chars.take written := by
    rw [hw, List.take_eq_take_iff]
    omega
  have hlen' : (chars.take written).length = written := by
    rw [List.length_take]
    omega
  have hsub : substitutions (chars.take written) ≤ chars.length :=
    (List.length_filter_le _ _).trans (List.length_take_le' _ _)
  unfold writeText addCount
  dsimp only
  rw [htake, hlen', Nat.zero_add, Nat.zero_add, Nat.min_eq_right (by omega), Nat.min_eq_right (by omega)]
  rfl

/-- R36, R57: the lines that the cells written mark. -/
theorem Station.putCells_marked (st : Station) (a : Nat) (chars : List Byte) :
    st.dr.Marked (st.putCells a chars).dr (st.link == .attached) (st.sheet.showsCells a chars.length) := by
  intro i
  unfold Station.putCells Station.markCells
  rw [Station.markLines_stale, Sheet.lineShows_eq]
  rfl

/-- R1, R57: the cells after characters are written. -/
theorem Sheet.cell_putCells {sh : Sheet} (h : Memory.wf cellDefault sh.cells) (a : Nat) (chars : List Byte) (b : Nat) :
    (sh.putCells a chars).cell b = if a ≤ b ∧ b < a + chars.length then chars.getD (b - a) 0x20#8 else sh.cell b := by
  split
  · rename_i hb
    have hi : b - a < chars.length := by omega
    have hin := Sheet.cell_putCells_inside sh a (b - a) chars h hi
    rw [Nat.add_sub_cancel' hb.1] at hin
    rw [hin, List.getD_eq_getElem _ _ hi]
  · exact Sheet.cell_putCells_outside sh a b chars (by omega)

/-- Settles O40: the AT sets the write pointer, and the TEXT writes what fits. -/
theorem writeTextPlacesCharacters : Obligations.WriteTextPlacesCharacters := by
  intro s n a chars hs hsound hw ha hlen written
  obtain ⟨hrows, -, -, -, ⟨hwf, -⟩, -⟩ := hsound n
  have hsize : a < 65536 := by unfold Sheet.size at ha; omega
  have hwritten : written = min chars.length (((s.station n).setEdited none).sheet.size - a) := rfl
  have hle : written ≤ chars.length := Nat.min_le_left _ _
  clear_value written
  have happly : applyStream s.store [(1, .setPointer a), (4, .text chars)] ⟨0, 0, 0⟩ ((s.station n).setEdited none) =
      (none, (writeText ⟨a, 0, 0⟩ ((s.station n).setEdited none) chars).1,
        (writeText ⟨a, 0, 0⟩ ((s.station n).setEdited none) chars).2) := by
    rw [applyStream_ok (applyDirective_setPointer s.store _ (st := (s.station n).setEdited none) ha)]
    rfl
  rw [writeText_counts hlen hwritten] at happly
  have hwl : ((chars.take written).map toPrintable).length = written := by
    rw [List.length_map, List.length_take, Nat.min_eq_left hle]
  have hpayload : (0x00#8 :: 0x03#8 :: (bytes2 a ++ 0x06#8 :: byte1 chars.length :: chars)).length ≤ 2048 := by
    simp
    omega
  have hstream : (0x03#8 :: (bytes2 a ++ 0x06#8 :: byte1 chars.length :: chars)).length = chars.length + 5 := by
    simp
    omega
  have hexec := exec_write_done (n := n) hs hw hpayload
    (by rw [hstream]; exact walkStream_pointer_text _ hsize hlen) happly
  refine ⟨((s.station n).setEdited none).putCells a ((chars.take written).map toPrintable), ?_, ?_, fun b => ?_, ?_⟩
  · refine hexec.trans ?_
    unfold writeAnswer
    rw [Station.putCells_link, Station.putCells_input]
    rfl
  · rw [Station.putCells_eq, Station.putCells_dr_eq]
    rfl
  · rw [Station.putCells_sheet]
    refine (Sheet.cell_putCells hwf a _ b).trans ?_
    rw [hwl]
    split
    · rename_i hb
      have hi : b - a < chars.length := by omega
      rw [List.getD_eq_getElem _ _ (by rw [hwl]; omega), List.getElem_map, List.getElem_take,
        List.getD_eq_getElem _ _ hi]
    · rfl
  · have hmarked := ((s.station n).setEdited none).putCells_marked a ((chars.take written).map toPrintable)
    rw [hwl] at hmarked
    exact hmarked

/-! ### FIELD (R59) -/

section
variable {sh : Sheet} {k start length : Nat} {cls : Byte}

theorem Sheet.fieldFault_number (h : k = 0 ∨ 160 < k) : sh.fieldFault k start length cls = some .badNumber :=
  if_pos (by omega)

variable (hk : 1 ≤ k ∧ k ≤ 160)
include hk

theorem Sheet.fieldFault_used (h : ∃ f ∈ sh.fields, f.number = k) :
    sh.fieldFault k start length cls = some .numberInUse := by
  have hused : (sh.fieldNumbered k).isSome = true := by
    obtain ⟨f, hf, hn⟩ := h
    exact List.find?_isSome.mpr ⟨f, hf, by simpa using hn⟩
  unfold Sheet.fieldFault
  rw [if_neg (by omega), if_pos hused]

variable (hfree : ∀ f ∈ sh.fields, f.number ≠ k)
include hfree

theorem Sheet.fieldFault_length : sh.fieldFault k start 0 cls = some .badLength := by
  unfold Sheet.fieldFault
  rw [if_neg (by omega), Sheet.fieldNumbered_none hfree]
  rfl

variable (hlen : length ≠ 0)
include hlen

theorem Sheet.fieldFault_place (h : sh.size < start + length) :
    sh.fieldFault k start length cls = some .badAddress := by
  unfold Sheet.fieldFault
  rw [if_neg (by omega), Sheet.fieldNumbered_none hfree, if_neg nofun, if_neg hlen, if_pos (.inr h)]

variable (hfit : start + length ≤ sh.size)
include hfit

theorem Sheet.fieldFault_class (h : 15 < cls.toNat) : sh.fieldFault k start length cls = some .classRange := by
  unfold Sheet.fieldFault
  rw [if_neg (by omega), Sheet.fieldNumbered_none hfree, if_neg nofun, if_neg hlen, if_neg (by omega), if_pos h]

/-- R59: the last check of FIELD. -/
theorem Sheet.fieldFault_last (hcls : cls.toNat ≤ 15) :
    sh.fieldFault k start length cls =
      if sh.fields.any fun g => decide (start < g.start + g.length ∧ g.start < start + length) then some .overlap
      else none := by
  unfold Sheet.fieldFault
  rw [if_neg (by omega), Sheet.fieldNumbered_none hfree, if_neg nofun, if_neg hlen, if_neg (by omega),
    if_neg (by omega)]

theorem Sheet.fieldFault_overlap (hcls : cls.toNat ≤ 15)
    (h : ∃ g ∈ sh.fields, start < g.start + g.length ∧ g.start < start + length) :
    sh.fieldFault k start length cls = some .overlap := by
  rw [Sheet.fieldFault_last hk hfree hlen hfit hcls]
  exact if_pos (List.any_eq_true.mpr (by simpa using h))

theorem Sheet.fieldFault_passed (hcls : cls.toNat ≤ 15)
    (h : ∀ g ∈ sh.fields, start + length ≤ g.start ∨ g.start + g.length ≤ start) :
    sh.fieldFault k start length cls = none := by
  rw [Sheet.fieldFault_last hk hfree hlen hfit hcls]
  refine if_neg fun hany => ?_
  obtain ⟨g, hg, hover⟩ := List.any_eq_true.mp hany
  have := of_decide_eq_true hover
  have := h g hg
  omega

end

section
variable (store : Store) (w : Writer) {st : Station} {k start length : Nat} {cls : Byte} (props fill : Byte)

theorem applyDirective_field_fails {e : DirFault} (h : st.sheet.fieldFault k start length cls = some e) :
    applyDirective store w st (.field k start length props cls fill) = .error e := by
  simp only [applyDirective, h]

theorem applyDirective_field_passes (h : st.sheet.fieldFault k start length cls = none) {c : Fin 16}
    (hc : c.1 = cls.toNat) {f : Field} (hf : f =
      { number := k, start := start, length := length, props := fieldPropsOf props c fill, touched := false }) :
    applyDirective store w st (.field k start length props cls fill) =
      .ok (w, { st with sheet := st.sheet.insertField f }.markField f) := by
  have hclass : classOf cls = some c := by
    unfold classOf
    rw [dif_pos (hc ▸ c.2)]
    exact congrArg some (Fin.ext hc.symm)
  simp only [applyDirective, h, hclass, hf]

end

theorem Station.markField_eq (st : Station) (f : Field) :
    st.markField f = { st with dr := { st.dr with stale := (st.markField f).dr.stale } } := by
  unfold Station.markField Station.markCells
  rw [Station.markLines_eq, Station.markLines_dr_eq]

/-- R36: the lines that a field inserted marks. -/
theorem Station.markField_marked (st : Station) (f : Field) :
    st.dr.Marked (st.markField f).dr (st.link == .attached) (st.sheet.showsCells f.start f.length) := by
  intro i
  unfold Station.markField Station.markCells
  rw [Station.markLines_stale, Sheet.lineShows_eq]
  rfl

/-- R59, section 11.3: the stream of one FIELD. -/
theorem walkStream_field (busy : Bool) {k start : Nat} (hk : k < 256) (hstart : start < 65536)
    (length props cls fill : Byte) :
    walkStream busy 8 1 (0x08#8 :: byte1 k :: (bytes2 start ++ [length, props, cls, fill])) =
      .ok [(1, .field k start length.toNat props cls fill)] := by
  refine walkStream_found (rest := []) ?_ rfl rfl
  have hnum : number (bytes2 start) = start := number_bytes2 hstart
  change Parsed.found (.field (byte1 k).toNat (number (bytes2 start)) length.toNat props cls fill) [] = _
  rw [hnum, byte1_toNat_of_lt hk]

/-- Settles O41: the checks of FIELD in their order, and the field inserted. -/
theorem writeFieldChecksAndInserts : Obligations.WriteFieldChecksAndInserts := by
  intro s n k start length props cls fill hs hsound hw hk hstart sh c refused
  have hwalk := walkStream_field s.store.op.isSome hk hstart length props cls fill
  have fails {e : DirFault} (hfault : sh.fieldFault k start length.toNat cls = some e) : refused (byte1 e.code) :=
    exec_write_fails hs hw 0x00#8 (by simp) hwalk
      (applyStream_error
        (applyDirective_field_fails s.store _ (st := (s.station n).setEdited none) props fill hfault) 1 [])
  refine ⟨fun hbad => fails (Sheet.fieldFault_number hbad), fun hnum =>
    ⟨fun hused => fails (Sheet.fieldFault_used hnum hused), fun hfree =>
      ⟨fun hzero => fails (e := .badLength) ?_, fun hne => ?_⟩⟩⟩
  · rw [hzero]
    exact Sheet.fieldFault_length hnum hfree
  · have hlen : length.toNat ≠ 0 := fun hc => hne (BitVec.eq_of_toNat_eq hc)
    refine ⟨fun hplace => fails (Sheet.fieldFault_place hnum hfree hlen hplace), fun hfit =>
      ⟨fun hcls => fails (Sheet.fieldFault_class hnum hfree hlen hfit hcls), fun cl hcl => ?_⟩⟩
    have hcls : cls.toNat ≤ 15 := by omega
    refine ⟨fun hover => fails (Sheet.fieldFault_overlap hnum hfree hlen hfit hcls hover), fun hapart => ?_⟩
    have hpass := Sheet.fieldFault_passed hnum hfree hlen hfit hcls hapart
    obtain ⟨f, hf⟩ : ∃ f : Field,
        f = { number := k, start := start, length := length.toNat, props := fieldPropsOf props cl fill
              touched := false } := ⟨_, rfl⟩
    have happly := applyStream_ok (applyDirective_field_passes s.store ⟨0, 0, 0⟩ (st := (s.station n).setEdited none)
      props fill hpass hcl hf) 1 []
    have hexec := exec_write_done
      (stream := 0x08#8 :: byte1 k :: (bytes2 start ++ [length, props, cls, fill])) hs hw (by simp) hwalk happly
    rw [writeAnswer_uncounted (st := s.station n) (by simp) (by simp)] at hexec
    obtain ⟨hfn, hfs, hfl⟩ : f.number = k ∧ f.start = start ∧ f.length = length.toNat := by
      rw [hf]
      exact ⟨rfl, rfl, rfl⟩
    have hbyte := length.isLt
    have hfields : (sh.insertField f).FieldsSound := by
      obtain ⟨-, -, -, -, -, h, -⟩ := (hsound n).insertField (f := f) (by rw [hfn]; exact hnum) (by rw [hfl]; omega)
        (by rw [hfs, hfl]; exact hfit) (by rw [hfn, hfs, hfl]; exact fun g hg => ⟨hfree g hg, hapart g hg⟩)
      exact h
    refine ⟨_, hexec, ?_, ?_, fun g => ?_, ?_⟩
    · rw [Station.markField_eq]
      rfl
    · rw [Station.markField_sheet]
      exact hfields
    · rw [Station.markField_sheet, ← hf]
      exact (mem_insertByStart f g _).trans or_comm
    · have hmarked := Station.markField_marked
        { s.station n with sheet := { sh.insertField f with edited := none } } f
      rw [hfs, hfl] at hmarked
      exact hmarked

end Sys2Proof.Machine
end

section
/-! SUPPORT. The completion flags of a WRITE, and the replay of the type-ahead queue that UNLOCK begins (O43). -/

namespace Sys2Proof.Machine

/-! ### What an action leaves of its station (R84, R89) -/

/-- Of the station only what the operator's actions and the completion flags change differs. -/
def Station.Operated (st st' : Station) : Prop :=
  st' = { st with
    input := st'.input, error := st'.error, sheet := st'.sheet, typeAhead := st'.typeAhead, rep := st'.rep
    scan := st'.scan, dr := st'.dr }

/-- The type-ahead queue is as it was, or is emptied by an error that ends ENTRY. -/
def Station.KeepsQueue (st st' : Station) : Prop :=
  st'.typeAhead = st.typeAhead ∨ (st'.typeAhead = [] ∧ st'.input ≠ .entry)

theorem Station.Operated.refl (st : Station) : st.Operated st := rfl

theorem Station.Operated.trans {a b c : Station} (h : a.Operated b) (k : b.Operated c) : a.Operated c := by
  unfold Station.Operated at h k ⊢
  rw [k, h]

theorem Station.Edits.operated {st st' : Station} (h : st.Edits st') : st.Operated st' := by
  unfold Station.Operated
  rw [h.1]

theorem Station.HeldFrom.operated {st st' : Station} (h : st.HeldFrom st') : st.Operated st' := by
  unfold Station.Operated
  rw [h.1]

theorem Station.Acts.operated {st st' : Station} (h : st.Acts st') : st.Operated st' :=
  h.elim Station.Edits.operated Station.HeldFrom.operated

theorem Station.HeldFrom.keepsQueue {st st' : Station} (h : st.HeldFrom st') : st.KeepsQueue st' := by
  refine .inr ⟨by rw [h.1], ?_⟩
  rw [h.1]
  exact nofun

theorem Station.Acts.keepsQueue {st st' : Station} (h : st.Acts st') : st.KeepsQueue st' :=
  h.elim (fun h => .inl h.typeAhead) Station.HeldFrom.keepsQueue

theorem Station.setInput_operated (st : Station) (i : InputState) : st.Operated (st.setInput i) := by
  unfold Station.setInput
  split
  · exact .refl st
  · exact (show st.Operated { st with input := i, rep := none } from rfl).trans
      (Station.Edits.markIndicator { st with input := i, rep := none }).operated

theorem Station.dropScan_operated (st : Station) : st.Operated st.dropScan := by
  unfold Station.dropScan
  split
  · exact (show st.Operated { st with scan := none } from rfl).trans
      (Station.Edits.markIndicator { st with scan := none }).operated
  · exact .refl st

/-- What an operation at one station leaves of the state: the station, the release queue and the attention register. -/
structure State.OperatesAt (s : State) (n : StationIx) (t : State) : Prop where
  frame : t = { s with stations := t.stations, rq := t.rq, causes := t.causes }
  others : ∀ k, k ≠ n → t.station k = s.station k
  operated : (s.station n).Operated (t.station n)

theorem State.OperatesAt.refl (s : State) (n : StationIx) : s.OperatesAt n s := ⟨rfl, fun _ _ => rfl, rfl⟩

theorem State.OperatesAt.trans {a b c : State} {n : StationIx} (h : a.OperatesAt n b) (k : b.OperatesAt n c) :
    a.OperatesAt n c :=
  ⟨by rw [k.frame, h.frame], fun m hm => (k.others m hm).trans (h.others m hm), h.operated.trans k.operated⟩

theorem State.OperatesAt.setStation {s : State} {n : StationIx} {st : Station} (h : (s.station n).Operated st) :
    s.OperatesAt n (s.setStation n st) :=
  ⟨rfl, fun _ hk => State.station_setStation_ne _ _ hk, by rw [State.station_setStation_same]; exact h⟩

theorem State.placeRelease_operates (s : State) (n : StationIx) (code : Byte) (pri : Priority) (full : Bool) :
    s.OperatesAt n (s.placeRelease n code pri full) ∧
      (s.station n).KeepsQueue ((s.placeRelease n code pri full).station n) := by
  have hset (q : ReleaseQueue) (i : InputState) :
      s.OperatesAt n (({ s with rq := q } : State).onStation n fun st => st.setInput i) ∧
        (s.station n).KeepsQueue ((({ s with rq := q } : State).onStation n fun st => st.setInput i).station n) := by
    have hself : (({ s with rq := q } : State).onStation n fun st => st.setInput i).station n =
        (s.station n).setInput i := State.station_onStation_same _ _ _
    refine ⟨⟨rfl, fun k hk => State.station_onStation_ne _ _ hk, ?_⟩, .inl ?_⟩
    · rw [hself]
      exact Station.setInput_operated _ _
    · rw [hself, Station.setInput_typeAhead]
  unfold State.placeRelease
  dsimp only
  split
  · exact hset _ _
  · exact hset _ _

theorem State.release_operates (s : State) (n : StationIx) (code : Byte) (pri : Priority) (full : Bool) :
    s.OperatesAt n (s.release n code pri full) ∧
      (s.station n).KeepsQueue ((s.release n code pri full).station n) := by
  unfold State.release
  rcases (s.station n).releaseChecks_cases s.classes full with ⟨st, hc, hst, -⟩ | ⟨st, hc, hst⟩ <;> rw [hc]
  · obtain ⟨hplace, hqueue⟩ := (s.setStation n st).placeRelease_operates n code pri full
    refine ⟨(State.OperatesAt.setStation hst.operated).trans hplace, ?_⟩
    rw [State.station_setStation_same] at hqueue
    unfold Station.KeepsQueue at hqueue ⊢
    rw [hst.typeAhead] at hqueue
    exact hqueue
  · refine ⟨State.OperatesAt.setStation hst.operated, ?_⟩
    dsimp only
    rw [State.station_setStation_same]
    exact hst.keepsQueue

/-- R84: what an action processed does. -/
theorem State.process_operates (s : State) (n : StationIx) (a : Action) :
    s.OperatesAt n (s.process n a) ∧ (s.station n).KeepsQueue ((s.process n a).station n) := by
  have acted {st : Station} (h : (s.station n).Acts st) :
      s.OperatesAt n (s.setStation n st) ∧ (s.station n).KeepsQueue ((s.setStation n st).station n) := by
    refine ⟨State.OperatesAt.setStation h.operated, ?_⟩
    rw [State.station_setStation_same]
    exact h.keepsQueue
  cases a with
  | char c => exact acted (Station.charAction_acts _ _ c)
  | move m => exact acted (Station.moveAction_acts _ _ m)
  | edit e => exact acted (Station.editAction_acts _ _ e)
  | release code => exact s.release_operates n code .normal true
  | releaseShort code => exact s.release_operates n code .normal false
  | releaseUrgent code => exact s.release_operates n code .urgent false
  | signal => exact ⟨⟨rfl, fun _ _ => rfl, rfl⟩, .inl rfl⟩
  | reset => exact ⟨.refl s n, .inl rfl⟩
  | none => exact ⟨.refl s n, .inl rfl⟩
  | shift => exact ⟨.refl s n, .inl rfl⟩
  | alt => exact ⟨.refl s n, .inl rfl⟩

/-! ### The replay, action by action (R89) -/

/-- R89: one action of the replay: the queue's oldest taken off, and the action processed. -/
def State.replayStep (n : StationIx) (u : State) (a : Action) : State :=
  (u.setStation n { u.station n with typeAhead := (u.station n).typeAhead.tail }).process n a

/-- R89: the first k of the actions replayed. -/
def State.replayed (s : State) (n : StationIx) (as : List Action) (k : Nat) : State :=
  (as.take k).foldl (State.replayStep n) s

/-- R89: the replay takes k actions off the queue, in ENTRY before each, and ends with none left or outside ENTRY. -/
structure State.Replays (s : State) (n : StationIx) (as : List Action) (k : Nat) (t : State) : Prop where
  le : k ≤ as.length
  state : t = s.replayed n as k
  entry : ∀ j < k, ((s.replayed n as j).station n).input = .entry
  stops : k < as.length → (t.station n).input ≠ .entry
  operates : s.OperatesAt n t
  queue : (t.station n).typeAhead = as.drop k ∨ (t.station n).typeAhead = []
  emptied : (t.station n).input = .entry → (t.station n).typeAhead = []

theorem State.replayList_replays {n : StationIx} {as : List Action} {s : State}
    (hq : (s.station n).typeAhead = as ∨ ((s.station n).typeAhead = [] ∧ (s.station n).input ≠ .entry)) :
    ∃ k, s.Replays n as k (State.replayList n as s) := by
  induction as generalizing s with
  | nil =>
    have hempty : (s.station n).typeAhead = [] := hq.elim id And.left
    exact ⟨0, Nat.le_refl _, rfl, nofun, nofun, .refl s n, .inr hempty, fun _ => hempty⟩
  | cons a as ih =>
    unfold State.replayList
    split
    · rename_i he
      have hqueue : (s.station n).typeAhead = a :: as := hq.resolve_right fun h => h.2 he
      have hstep : s.replayOne n a as = State.replayStep n s a := by
        unfold State.replayOne State.replayStep
        rw [hqueue]
        rfl
      have hoff : s.OperatesAt n (s.setStation n { s.station n with typeAhead := as }) := .setStation rfl
      obtain ⟨hproc, hkeeps⟩ := (s.setStation n { s.station n with typeAhead := as }).process_operates n a
      rw [State.station_setStation_same] at hkeeps
      obtain ⟨k, hk⟩ := ih (s := s.replayOne n a as) hkeeps
      refine ⟨k + 1, Nat.succ_le_succ hk.le, ?_, fun j hj => ?_, fun hlt => hk.stops (Nat.lt_of_succ_lt_succ hlt),
        (hoff.trans hproc).trans hk.operates, hk.queue, hk.emptied⟩
      · rw [hk.state, hstep]
        rfl
      · cases j with
        | zero => exact he
        | succ j =>
          have hentry := hk.entry j (Nat.lt_of_succ_lt_succ hj)
          rw [hstep] at hentry
          exact hentry
    · rename_i he
      exact ⟨0, Nat.zero_le _, rfl, nofun, fun _ => he, .refl s n, hq.imp id And.left, fun h => absurd h he⟩

/-! ### The receipt of the frame does not matter to the flags (R46) -/

theorem State.placeRelease_received (s : State) (n : StationIx) (code : Byte) (pri : Priority) (full : Bool) :
    s.byteSeen.hunt.placeRelease n code pri full = (s.placeRelease n code pri full).byteSeen.hunt := by
  unfold State.placeRelease
  dsimp only
  by_cases h : s.rq.rooms = [] ∧ s.rq.fits (recordSize ((s.station n).sheet.releaseEntries full))
  · rw [if_pos h]
    exact if_pos h
  · rw [if_neg h]
    exact if_neg h

theorem State.release_received (s : State) (n : StationIx) (code : Byte) (pri : Priority) (full : Bool) :
    s.byteSeen.hunt.release n code pri full = (s.release n code pri full).byteSeen.hunt := by
  have hsame : (s.byteSeen.hunt.station n).releaseChecks s.byteSeen.hunt.classes full =
      (s.station n).releaseChecks s.classes full := rfl
  unfold State.release
  rw [hsame]
  cases (s.station n).releaseChecks s.classes full with
  | error st => rfl
  | ok st => exact (s.setStation n st).placeRelease_received n code pri full

theorem State.process_received (s : State) (n : StationIx) (a : Action) :
    s.byteSeen.hunt.process n a = (s.process n a).byteSeen.hunt := by
  cases a with
  | release code => exact s.release_received n code .normal true
  | releaseShort code => exact s.release_received n code .normal false
  | releaseUrgent code => exact s.release_received n code .urgent false
  | _ => rfl

theorem State.replayList_received (n : StationIx) (as : List Action) (s : State) :
    State.replayList n as s.byteSeen.hunt = (State.replayList n as s).byteSeen.hunt := by
  induction as generalizing s with
  | nil => rfl
  | cons a as ih =>
    have hone : s.byteSeen.hunt.replayOne n a as = (s.replayOne n a as).byteSeen.hunt :=
      (s.onStation n fun st => { st with typeAhead := as }).process_received n a
    unfold State.replayList
    by_cases he : (s.station n).input = .entry
    · rw [if_pos he]
      exact (if_pos he).trans (by rw [hone, ih])
    · rw [if_neg he]
      exact if_neg he

theorem State.applyFlags_received (s : State) (n : StationIx) (flags : Byte) :
    s.byteSeen.hunt.applyFlags n flags = (s.applyFlags n flags).byteSeen.hunt := by
  have hreplay : (s.byteSeen.hunt.flagsToLock n flags).replay n = ((s.flagsToLock n flags).replay n).byteSeen.hunt :=
    State.replayList_received n _ (s.flagsToLock n flags)
  have hlock : s.byteSeen.hunt.flagsToLock n flags = (s.flagsToLock n flags).byteSeen.hunt := rfl
  have hsame : (s.byteSeen.hunt.station n).replaysOn flags = (s.station n).replaysOn flags := rfl
  unfold State.applyFlags
  dsimp only
  rw [hreplay, hsame, hlock]
  cases (s.station n).replaysOn flags <;> cases flagAlarm flags <;> rfl

/-! ### The flags at the station (R67 to R69) -/

/-- R67, R68: the station after UNTOUCH and the LOCK or UNLOCK step. -/
theorem State.flagsToLock_eq (s : State) (n : StationIx) (flags : Byte) :
    s.flagsToLock n flags =
      s.setStation n (({ s.station n with
        sheet := { (s.station n).sheet with
          fields := if flags.getLsbD 3 then (s.station n).sheet.fields.map fun f => { f with touched := false }
            else (s.station n).sheet.fields } } : Station).lockStep flags) := by
  unfold State.flagsToLock flagUntouch
  rw [State.onStation_eq]
  cases flags.getLsbD 3 <;> rfl

/-- R68: the LOCK or UNLOCK step at a station with no release pending. -/
theorem Station.lockStep_writable {st : Station} (h : st.Writable) (flags : Byte) :
    st.lockStep flags =
      if flags.getLsbD 0 then st.setInput .entry
      else if flags.getLsbD 1 then st.dropScan.setInput .locked else st := by
  obtain ⟨-, hrel, hroom⟩ := h
  unfold Station.lockStep
  split
  · rename_i hi; exact absurd hi hrel
  · rename_i hi; exact absurd hi hroom
  · rfl

theorem Station.setInput_rep (st : Station) (i : InputState) :
    (st.setInput i).rep = if i = st.input then st.rep else none := by
  unfold Station.setInput
  by_cases h : st.input = i
  · rw [if_pos h, if_pos h.symm]
  · rw [if_neg h, if_neg (Ne.symm h)]
    exact (Station.Edits.markIndicator { st with input := i, rep := none }).rep

/-- R69: the station after the ALARM flag. -/
def Station.alarmed (st : Station) (flag : Bool) : Station :=
  { st with dr := { st.dr with alarm := st.dr.alarm || (flag && st.link == .attached) } }

theorem Station.requestAlarm_alarmed (st : Station) (flag : Bool) :
    (if flag then st.requestAlarm else st) = st.alarmed flag := by
  unfold Station.alarmed
  cases flag with
  | false => simp
  | true =>
    have hatt : st.attached = (st.link == .attached) := rfl
    unfold Station.requestAlarm
    rw [hatt, if_pos rfl, Bool.true_and]
    cases hl : st.link == .attached with
    | true =>
      rw [if_pos rfl, Bool.or_true]
    | false =>
      rw [if_neg nofun, Bool.or_false]

/-- R51, R67: the sheet with the edited-field register cleared, and the touched flags when UNTOUCH is set. -/
def Sheet.flagged (sh : Sheet) (flags : Byte) : Sheet :=
  { sh with
    edited := none
    fields := if flags.getLsbD 3 then sh.fields.map fun f => { f with touched := false } else sh.fields }

/-- R68: the input state that the LOCK or UNLOCK step leaves. -/
def InputState.afterLock (i : InputState) (flags : Byte) : InputState :=
  if flags.getLsbD 0 then .entry else if flags.getLsbD 1 then .locked else i

/-- R68: what the LOCK or UNLOCK step leaves of a station with no release pending. -/
structure Station.LockStepped (st : Station) (flags : Byte) (u : Station) : Prop where
  operated : st.Operated u
  input : u.input = st.input.afterLock flags
  typeAhead : u.typeAhead = st.typeAhead
  error : u.error = st.error
  sheet : u.sheet = st.sheet
  rep : u.rep = if st.input.afterLock flags = st.input then st.rep else none
  scan : u.scan = if flags.getLsbD 1 && !flags.getLsbD 0 then none else st.scan
  alarm : u.dr.alarm = st.dr.alarm

theorem Station.setInput_alarm (st : Station) (i : InputState) : (st.setInput i).dr.alarm = st.dr.alarm := by
  unfold Station.setInput
  split
  · rfl
  · unfold Station.markIndicator
    rw [Station.markLines_dr_eq]

theorem Station.dropScan_alarm (st : Station) : st.dropScan.dr.alarm = st.dr.alarm := by
  unfold Station.dropScan
  split
  · unfold Station.markIndicator
    rw [Station.markLines_dr_eq]
  · rfl

theorem Station.lockStep_stepped {st : Station} (h : st.Writable) (flags : Byte) :
    st.LockStepped flags (st.lockStep flags) := by
  rw [Station.lockStep_writable h]
  cases hunlock : flags.getLsbD 0 with
  | true =>
    rw [if_pos rfl]
    have hafter : st.input.afterLock flags = .entry := by
      unfold InputState.afterLock
      rw [hunlock, if_pos rfl]
    refine ⟨st.setInput_operated .entry, ?_, by simp, by simp, by simp, ?_, ?_, st.setInput_alarm .entry⟩
    · rw [hafter, Station.setInput_input]
    · rw [hafter, Station.setInput_rep]
    · rw [Station.setInput_scan, hunlock, Bool.not_true, Bool.and_false]
      rfl
  | false =>
    rw [if_neg nofun]
    cases hlock : flags.getLsbD 1 with
    | true =>
      rw [if_pos rfl]
      have hafter : st.input.afterLock flags = .locked := by
        unfold InputState.afterLock
        rw [hunlock, hlock]
        rfl
      refine ⟨st.dropScan_operated.trans (st.dropScan.setInput_operated .locked), ?_, by simp, by simp, by simp, ?_, ?_,
        (st.dropScan.setInput_alarm .locked).trans st.dropScan_alarm⟩
      · rw [hafter, Station.setInput_input]
      · rw [hafter, Station.setInput_rep, Station.dropScan_input, Station.dropScan_rep]
      · rw [hlock, hunlock, Station.setInput_scan, Station.dropScan_scan]
        rfl
    | false =>
      rw [if_neg nofun]
      have hafter : st.input.afterLock flags = st.input := by
        unfold InputState.afterLock
        rw [hunlock, hlock]
        rfl
      exact ⟨.refl st, hafter.symm, rfl, rfl, rfl, by rw [hafter, if_pos rfl], by rw [hlock]; rfl, rfl⟩

/-! ### A WRITE of its flags alone (R46, R70) -/

section
variable {s : State} {n : StationIx} (h : (s.station n).Writable) (flags : Byte)
include h

/-- The station that the flags up to LOCK and UNLOCK leave. -/
def Station.locked (st : Station) (flags : Byte) : Station :=
  ({ st with sheet := st.sheet.flagged flags } : Station).lockStep flags

omit h in
theorem State.flagsToLock_cleared :
    (s.setStation n ((s.station n).setEdited none)).flagsToLock n flags =
      s.setStation n ((s.station n).locked flags) := by
  rw [State.flagsToLock_eq, State.station_setStation_same, State.setStation_setStation]
  rfl

theorem exec_write_flags (hs : s.Serving) :
    exec (.write (stationByte n) [flags]) s =
      .next (((s.setStation n ((s.station n).setEdited none)).applyFlags n flags).withAnswer (stationByte n) .accept
        [(s.station n).link.code, ((s.station n).input.afterLock flags).code, 0x00#8, 0x00#8, 0x00#8, 0x00#8]) := by
  have hstep := Station.lockStep_stepped (st := { s.station n with sheet := (s.station n).sheet.flagged flags }) h flags
  have hlink : ((s.station n).locked flags).link = (s.station n).link := by
    unfold Station.locked
    rw [hstep.operated]
  have hinput : ((s.station n).locked flags).input = (s.station n).input.afterLock flags := hstep.input
  have happly : s.byteSeen.hunt.applyWrite n flags [] =
      (accept (writeAnswer ((s.station n).locked flags) ⟨0, 0, 0⟩),
        ((s.setStation n ((s.station n).setEdited none)).applyFlags n flags).byteSeen.hunt) := by
    unfold State.applyWrite
    rw [State.beforeDirectives_writable (s := s.byteSeen.hunt) h]
    generalize hx : s.byteSeen.hunt.setStation n ((s.byteSeen.hunt.station n).setEdited none) = x
    have hlock : x.flagsToLock n flags = s.byteSeen.hunt.setStation n ((s.station n).locked flags) := by
      rw [← hx]
      exact State.flagsToLock_cleared (s := s.byteSeen.hunt) flags
    have hflags : x.applyFlags n flags =
        ((s.setStation n ((s.station n).setEdited none)).applyFlags n flags).byteSeen.hunt := by
      have hx' : x = (s.setStation n ((s.station n).setEdited none)).byteSeen.hunt := hx.symm
      rw [hx', State.applyFlags_received]
    change (accept (writeAnswer (((x.setStation n (x.station n)).flagsToLock n flags).station n) ⟨0, 0, 0⟩),
      (x.setStation n (x.station n)).applyFlags n flags) = _
    rw [State.setStation_self, hlock, hflags, State.station_setStation_same]
  rw [exec_write_passed hs h flags (stream := []) (ds := []) (by simp) rfl, happly, respond_accept]
  unfold writeAnswer
  rw [hlink, hinput]
  rfl

end

/-- R69: the ALARM flag. -/
theorem State.requestAlarm_alarmed (s : State) (n : StationIx) (flag : Bool) :
    (if flag then s.onStation n Station.requestAlarm else s) = s.setStation n ((s.station n).alarmed flag) := by
  rw [← Station.requestAlarm_alarmed]
  cases flag with
  | false => exact (s.setStation_self n).symm
  | true => rfl

section
variable (s : State) (n : StationIx) (flags : Byte)

/-- R67 to R69: the flags after the directives, step by step. -/
theorem State.applyFlags_steps :
    (s.setStation n ((s.station n).setEdited none)).applyFlags n flags =
      let r := if (s.station n).replaysOn flags then (s.setStation n ((s.station n).locked flags)).replay n
        else s.setStation n ((s.station n).locked flags)
      r.setStation n ((r.station n).alarmed (flags.getLsbD 2)) := by
  have hsame : ((s.setStation n ((s.station n).setEdited none)).station n).replaysOn flags =
      (s.station n).replaysOn flags := by
    rw [State.station_setStation_same]
    rfl
  unfold State.applyFlags
  dsimp only
  rw [hsame, State.flagsToLock_cleared]
  exact State.requestAlarm_alarmed _ n _

/-- R68: no replay, or nothing to replay. -/
theorem State.applyFlags_still
    (h : (s.station n).replaysOn flags = false ∨ ((s.station n).locked flags).typeAhead = []) :
    (s.setStation n ((s.station n).setEdited none)).applyFlags n flags =
      s.setStation n (((s.station n).locked flags).alarmed (flags.getLsbD 2)) := by
  rw [State.applyFlags_steps]
  have hstill : (if (s.station n).replaysOn flags then (s.setStation n ((s.station n).locked flags)).replay n
      else s.setStation n ((s.station n).locked flags)) = s.setStation n ((s.station n).locked flags) := by
    split
    · rename_i hr
      exact State.replay_empty s n (h.resolve_left (by rw [hr]; exact nofun))
    · rfl
  dsimp only
  rw [hstill, State.station_setStation_same, State.setStation_setStation]

/-- R68, R89: UNLOCK begins the replay. -/
theorem State.applyFlags_replay (h : (s.station n).replaysOn flags = true) :
    ∃ k u, (s.setStation n ((s.station n).locked flags)).Replays n ((s.station n).locked flags).typeAhead k u ∧
      (s.setStation n ((s.station n).setEdited none)).applyFlags n flags =
        u.setStation n ((u.station n).alarmed (flags.getLsbD 2)) := by
  have hqueue : ((s.setStation n ((s.station n).locked flags)).station n).typeAhead =
      ((s.station n).locked flags).typeAhead := by rw [State.station_setStation_same]
  obtain ⟨k, hk⟩ := State.replayList_replays (.inl hqueue)
  refine ⟨k, _, hk, ?_⟩
  rw [State.applyFlags_steps, h, if_pos rfl]
  unfold State.replay
  rw [hqueue]

end

theorem Station.replaysOn_iff (st : Station) (flags : Byte) :
    st.replaysOn flags = true ↔ flags.getLsbD 0 = true ∧ (st.input = .locked ∨ st.input = .waiting) := by
  simp [Station.replaysOn, flagUnlock]

theorem Station.alarmed_operated (st : Station) (flag : Bool) : st.Operated (st.alarmed flag) := rfl

theorem State.OperatesAt.withAnswer {s t : State} {n : StationIx} (h : s.OperatesAt n t) (station : Byte)
    (kind : UpKind) (payload : List Byte) :
    t.withAnswer station kind payload =
      { s with
        receiver := .hunting, quietLeft := 2, answer := (t.withAnswer station kind payload).answer
        stations := t.stations, rq := t.rq, causes := t.causes } := by
  unfold State.withAnswer
  rw [h.frame]

section
variable {s : State} {n : StationIx} (h : (s.station n).Writable) (flags : Byte)
include h

theorem Station.locked_stepped :
    ({ s.station n with sheet := (s.station n).sheet.flagged flags } : Station).LockStepped flags
      ((s.station n).locked flags) :=
  Station.lockStep_stepped (st := { s.station n with sheet := (s.station n).sheet.flagged flags }) h flags

theorem Station.locked_operated : (s.station n).Operated ((s.station n).locked flags) :=
  (show (s.station n).Operated { s.station n with sheet := (s.station n).sheet.flagged flags } from rfl).trans
    (Station.locked_stepped h flags).operated

/-- R67 to R69: the flags change their station alone, and take queued actions off from the front. -/
theorem State.applyFlags_operates {u : State}
    (hu : (s.setStation n ((s.station n).setEdited none)).applyFlags n flags = u) :
    s.OperatesAt n u ∧
      ∃ done, (s.station n).typeAhead = done ++ (u.station n).typeAhead ∨ (u.station n).typeAhead = [] := by
  have hlocked : s.OperatesAt n (s.setStation n ((s.station n).locked flags)) :=
    .setStation (Station.locked_operated h flags)
  have hqueue := (Station.locked_stepped h flags).typeAhead
  cases hr : (s.station n).replaysOn flags with
  | false =>
    rw [State.applyFlags_still s n flags (.inl hr)] at hu
    rw [← hu]
    refine ⟨.setStation ((Station.locked_operated h flags).trans (Station.alarmed_operated _ _)), [], .inl ?_⟩
    rw [State.station_setStation_same]
    exact hqueue.symm
  | true =>
    obtain ⟨k, v, hv, hv'⟩ := State.applyFlags_replay s n flags hr
    rw [hv'] at hu
    rw [← hu]
    refine ⟨(hlocked.trans hv.operates).trans (.setStation (Station.alarmed_operated _ _)),
      (s.station n).typeAhead.take k, ?_⟩
    rw [State.station_setStation_same]
    have hdrop := hv.queue
    rw [hqueue] at hdrop
    exact hdrop.imp (fun hd => by
      change _ = _ ++ (v.station n).typeAhead
      rw [hd]
      exact (List.take_append_drop k _).symm) id

end

/-- R89: a single RIGHT replayed moves the cursor one cell on. -/
theorem State.Replays.right {s : State} {n : StationIx} {k : Nat} {u : State} {st : Station}
    (h : (s.setStation n st).Replays n [.move .right] k u) (hentry : st.input = .entry)
    (hedited : st.sheet.edited = none) :
    (u.station n).input = .entry ∧
      (u.station n).sheet = { st.sheet with
        cursor := (st.sheet.cursor + 1) % (st.sheet.rows * 80)
        top := st.sheet.followTop ((st.sheet.cursor + 1) % (st.sheet.rows * 80) / 80) st.sheet.top } := by
  have hk : k = 1 := by
    have hle : k ≤ 1 := h.le
    rcases Nat.eq_zero_or_pos k with rfl | hpos
    · have hstop := h.stops Nat.one_pos
      rw [h.state] at hstop
      exact absurd ((congrArg Station.input (s.station_setStation_same n st)).trans hentry) hstop
    · omega
  subst hk
  have hfree : ∀ target, st.sheet.leaving target = none := fun target => by
    unfold Sheet.leaving Sheet.editedField
    rw [hedited]
    rfl
  have hu : u = s.setStation n (({ st with typeAhead := st.typeAhead.tail } : Station).carryOut
      ((st.sheet.cursor + 1) % st.sheet.size) none) := by
    rw [h.state]
    change State.replayStep n (s.setStation n st) (.move .right) = _
    unfold State.replayStep
    rw [State.station_setStation_same, State.setStation_setStation, State.process_move, Station.moveAction_right,
      Station.operatorMove_free (by exact hfree _)]
  rw [hu, State.station_setStation_same, Station.carryOut_eq]
  exact ⟨hentry, rfl⟩

/-! ### DISCARD RELEASE (R50) -/

/-- R48: a stream that phase 1 passes is handled, whether or not a release is pending. -/
theorem handleWrite_ok {s : State} {n : StationIx} (h : (s.station n).link ≠ .disabled) {flags : Byte}
    (hd : flags.getLsbD 4 = true) {stream : List Byte} {ds : List (Nat × Directive)}
    (hwalk : walkStream s.store.op.isSome stream.length 1 stream = .ok ds) :
    handleWrite n (flags :: stream) s = s.applyWrite n flags ds := by
  unfold handleWrite flagDiscard
  rw [if_neg h]
  dsimp only
  rw [hd, Bool.not_true, Bool.and_false, if_neg nofun, hwalk]

/-- R50: the directives of a WRITE find a station whose release is discarded as they find one LOCKED without one. -/
theorem State.applyWrite_discarded {s : State} {n : StationIx} (h : (s.station n).releasePending = true) (flags : Byte)
    (ds : List (Nat × Directive)) :
    s.applyWrite n flags ds =
      ((s.discardRelease n).setStation n ((s.station n).setInput .locked)).applyWrite n flags ds := by
  have hlocked : (s.discardRelease n).onStation n (fun st => st.setInput .locked) =
      (s.discardRelease n).setStation n ((s.station n).setInput .locked) := by
    rw [State.onStation_eq, State.station_discardRelease]
  have hfree : (((s.discardRelease n).setStation n ((s.station n).setInput .locked)).station n).releasePending =
      false := by
    rw [State.station_setStation_same, Station.releasePending_iff, Station.setInput_input]
    exact ⟨nofun, nofun⟩
  have hbefore : s.beforeDirectives n =
      ((s.discardRelease n).setStation n ((s.station n).setInput .locked)).beforeDirectives n := by
    unfold State.beforeDirectives
    rw [if_pos h, hlocked, if_neg (by rw [hfree]; exact nofun)]
  unfold State.applyWrite
  rw [hbefore]

/-- Settles O43: the flags in their order, the replay action by action, and DISCARD RELEASE before them. -/
theorem writeFlagsSetInputState : Obligations.WriteFlagsSetInputState := by
  refine ⟨fun s n flags hs hw => ?_, fun s n flags directives hs hrel hl hpending hd hpass hlen => ?_⟩
  · have hexec := exec_write_flags hw flags hs
    obtain ⟨u, hu⟩ : ∃ u, (s.setStation n ((s.station n).setEdited none)).applyFlags n flags = u := ⟨_, rfl⟩
    obtain ⟨hop, hqueue⟩ := State.applyFlags_operates hw flags hu
    have hstep := Station.locked_stepped hw flags
    rw [hu] at hexec
    refine ⟨_, hexec, hop.withAnswer _ _ _, ⟨_, rfl, rfl, rfl, rfl⟩, hop.others, hop.operated, hqueue,
      fun hstill => ?_, fun hunlock hin => ?_⟩
    · have hno : (s.station n).replaysOn flags = false ∨ ((s.station n).locked flags).typeAhead = [] := by
        cases hr : (s.station n).replaysOn flags with
        | false => exact .inl rfl
        | true =>
          obtain ⟨hunlock, hin⟩ := (Station.replaysOn_iff _ _).mp hr
          rcases hstill with hc | hc | hc | hc
          · rw [hunlock] at hc; cases hc
          · rw [hc] at hin; rcases hin with hin | hin <;> cases hin
          · rw [hc] at hin; rcases hin with hin | hin <;> cases hin
          · exact .inr (hstep.typeAhead.trans hc)
      rw [State.applyFlags_still s n flags hno] at hu
      have hself : u.station n = ((s.station n).locked flags).alarmed (flags.getLsbD 2) := by
        rw [← hu, State.station_setStation_same]
      have hlink : ((s.station n).locked flags).link = (s.station n).link := by rw [hstep.operated]
      refine ⟨?_, ?_⟩
      · change _ = (s.setStation n (u.station n)).withAnswer _ _ _
        rw [hself, hu]
        rfl
      · change (u.station n).input = _ ∧ (u.station n).typeAhead = _ ∧ (u.station n).error = _ ∧
          (u.station n).rep = _ ∧ (u.station n).scan = _ ∧ (u.station n).sheet = _ ∧ (u.station n).dr.alarm = _
        rw [hself]
        refine ⟨hstep.input, hstep.typeAhead, hstep.error, hstep.rep, hstep.scan, hstep.sheet, ?_⟩
        unfold Station.alarmed
        dsimp only
        rw [hstep.alarm, hlink]
    · obtain ⟨k, v, hv, hv'⟩ := State.applyFlags_replay s n flags ((Station.replaysOn_iff _ _).mpr ⟨hunlock, hin⟩)
      have hopened : (s.station n).locked flags =
          ({ s.station n with sheet := (s.station n).sheet.flagged flags } : Station).setInput .entry := by
        unfold Station.locked
        rw [Station.lockStep_writable (by exact hw), hunlock]
        rfl
      have huv := hu.symm.trans hv'
      rw [hstep.typeAhead] at hv
      have hself : u.station n = (v.station n).alarmed (flags.getLsbD 2) := by
        rw [huv, State.station_setStation_same]
      have hinput : ((s.station n).locked flags).input = .entry := by rw [hopened, Station.setInput_input]
      have hsheet : ((s.station n).locked flags).sheet = (s.station n).sheet.flagged flags := hstep.sheet
      refine ⟨⟨k, hv.le, ?_, fun hlt => ?_, ?_⟩, fun he => ?_, fun hqueue => ?_⟩
      · rw [hopened] at hv
        exact hv.entry
      · have hstop := hv.stops hlt
        rw [hv.state, hopened] at hstop
        exact hstop
      · rw [hv.state, hopened] at huv
        rw [huv]
        rfl
      · change (u.station n).input = .entry at he
        change (u.station n).typeAhead = []
        rw [hself] at he ⊢
        exact hv.emptied he
      · change (u.station n).input = .entry ∧ (u.station n).sheet = _
        have hv : (s.setStation n ((s.station n).locked flags)).Replays n (s.station n).typeAhead k v := hv
        rw [hqueue] at hv
        obtain ⟨he, hsh⟩ := hv.right hinput (by rw [hsheet]; rfl)
        rw [hself]
        refine ⟨he, ?_⟩
        change (v.station n).sheet = _
        rw [hsh, hsheet]
        rfl
  · have hphase : ∀ x ∈ directives, wholeDirective x = true ∧ (x.head? = some 0x01#8 → s.store.op.isSome = false) :=
      fun x hx => ⟨(hpass x hx).1, fun hf => by rw [(hpass x hx).2 hf]; rfl⟩
    obtain ⟨ds, hwalk⟩ := walkStream_passes hphase (offset := 1) _ (Nat.le_refl _)
    have hreleases : s.byteSeen.hunt.ReleasesSound := hrel.idle rfl rfl rfl
    obtain ⟨moved, hserved, hself, hrest, hframe, -⟩ := hreleases.served n ((s.station n).setInput .locked)
    have hhandle : handleWrite n (flags :: directives.flatten) s.byteSeen.hunt =
        s.byteSeen.hunt.applyWrite n flags ds := handleWrite_ok (s := s.byteSeen.hunt) hl hd hwalk
    rw [State.applyWrite_discarded (s := s.byteSeen.hunt) (Station.releasePending_of hpending)] at hhandle
    have hsame : s.byteSeen.hunt.station n = s.station n := rfl
    rw [hsame] at hhandle
    generalize (s.byteSeen.hunt.discardRelease n).setStation n ((s.station n).setInput .locked) = x at *
    obtain ⟨d, hd'⟩ : ∃ d : State, d = { s with stations := x.stations, rq := x.rq } := ⟨_, rfl⟩
    have hx : d.byteSeen.hunt = x := by
      rw [hframe, hd']
      rfl
    have hhandle' : handleWrite n (flags :: directives.flatten) d.byteSeen.hunt = x.applyWrite n flags ds := by
      rw [hx]
      refine handleWrite_ok ?_ hd ?_
      · rw [hself, Station.setInput_link]
        exact hl
      · rw [hframe]
        exact hwalk
    have hpayload : (flags :: directives.flatten).length ≤ 2048 := Nat.succ_le_succ hlen
    have hexec := exec_serving hs .write (stationByte n) hpayload
    have hexec' := exec_serving (s := d) (by rw [hd']; exact hs) .write (stationByte n) hpayload
    rw [State.handle, toStation_stationByte] at hexec hexec'
    rw [hhandle] at hexec
    rw [hhandle'] at hexec'
    refine ⟨d, moved, hexec.trans hexec'.symm, ?_⟩
    rw [hd']
    exact ⟨hself, hserved, hrest, rfl, rfl, rfl, rfl, rfl, rfl, rfl, rfl, rfl, rfl, rfl, rfl, rfl, rfl, rfl, rfl⟩

end Sys2Proof.Machine
end
